-- ==== Sys2Proof/Word.lean ====
section
/-! DEFINITION. The word types of DISPCORE (rule R11): bytes on the bus, 16-bit coordinates and colours, 32-bit counts. -/

namespace Sys2Proof

/-- A byte of a command table, of the BitSource or of the bus (R9). -/
abbrev Byte := BitVec 8

/-- A coordinate, a dimension or an RGB565 colour (R9, R11). -/
abbrev Word := BitVec 16

/-- A pixel count (R11). -/
abbrev DWord := BitVec 32

end Sys2Proof
end

