-- ==== Sys2Proof/Config.lean ====
section
/-! DEFINITION. The configuration of DISPCORE: the implementation parameters (rule R8), plain data fixed for an execution (R40), and the constants the document fixes (rule R9). -/

namespace Sys2Proof

/-- BLIT_WINDOW (R161, conflict C1): which window DRAWBITMAP programs. -/
inductive BlitWindow where
  /-- `(originX, originY, originX + width, originY + height)`, the default. -/
  | literal
  /-- `(originX, originY, originX + width - 1, originY + height - 1)`. -/
  | inclusive
  /-- A function of the model's configuration, `Config.suppliedBlitWindow`. -/
  | supplied
  deriving DecidableEq, Repr

/-- The parameters of rule R8. The document leaves every one of them open, so statements quantify over them. -/
structure Config where
  /-- NATIVE_W -/
  nativeW : Word
  /-- NATIVE_H -/
  nativeH : Word
  /-- CAP, in 16-bit words -/
  cap : Nat
  /-- MARGIN -/
  margin : Nat
  /-- CMD_COLUMN_RANGE -/
  cmdColumnRange : Byte
  /-- CMD_ROW_RANGE -/
  cmdRowRange : Byte
  /-- CMD_MEMORY_WRITE -/
  cmdMemoryWrite : Byte
  /-- CMD_MEM_ACCESS_CTRL -/
  cmdMemAccessCtrl : Byte
  /-- TABLE_RESET_OFF, its base at index 0 (R52; log 6) -/
  tableResetOff : List Byte
  /-- TABLE_WAKE_ON, its base at index 0 (R52; log 6) -/
  tableWakeOn : List Byte
  /-- INIT_ROTATION -/
  initRotation : BitVec 2
  /-- BLIT_WINDOW -/
  blitWindow : BlitWindow
  /-- FILLSCREEN_BRACKET -/
  fillscreenBracket : Bool
  /-- TBL_ADDR_BITS -/
  tblAddrBits : Nat
  deriving DecidableEq, Repr

/-- The constants the document fixes (R9). -/
structure Config.Constants where
  /-- END_MARK -/
  endMark : Byte
  /-- DELAY_MARK -/
  delayMark : Byte
  /-- ROT_CTRL[0..3] -/
  rotCtrl : Vector Byte 4
  /-- BITS_PER_SOURCE_BYTE: pixels a source byte holds -/
  bitsPerSourceByte : Nat
  deriving DecidableEq, Repr

/-- The document's values, held here once, so that an audit of its literals changes this table alone (R9, decision D24;
log 27). The widths of R9 are the types of Sys2Proof/Word.lean. -/
def Config.constants : Config.Constants where
  endMark := 0x00
  delayMark := 0x55
  rotCtrl := #v[0x40, 0x20, 0x80, 0xE0]
  bitsPerSourceByte := 8

/-- The third reading of BLIT_WINDOW (R161): a function (width, height, originX, originY) -> (x1, y1, x2, y2) the
document does not pin down. FREE VALUE: it has no body, so a statement holds for every such function (log 5). -/
opaque Config.suppliedBlitWindow (width height originX originY : Word) : Word × Word × Word × Word

/-- The parameters of the machine at reset: the defaults of R8 where it gives them, else the configuration of
95_test_vectors.md, and the empty table `[0x00]` for the two tables.
PRESUMED for the four command numbers (log 24), DESIGN CHOICE for the rest (log 4); unsafe. -/
def Config.reset : Config where
  nativeW := 320
  nativeH := 240
  cap := 32
  margin := 8
  cmdColumnRange := 0x2A
  cmdRowRange := 0x2B
  cmdMemoryWrite := 0x2C
  cmdMemAccessCtrl := 0x36
  tableResetOff := [0x00]
  tableWakeOn := [0x00]
  initRotation := 0
  blitWindow := .literal
  fillscreenBracket := false
  tblAddrBits := 32

end Sys2Proof
end

