-- ==== Sys2Proof/Machine/State.lean ====
section
/-! DEFINITION. The state of DISPCORE as plain data (rules R20 to R41), the outcomes' reasons, and the state after reset (rule R41). -/

namespace Sys2Proof.Machine

/-- One call on an external capability (R15); the ordered list of events is the observable behaviour (R17). -/
inductive Event where
  /-- `TxCmd(b)` (R57) -/
  | txCmd (b : Byte)
  /-- `TxData(b)` (R58) -/
  | txData (b : Byte)
  /-- `TxSetData()` (R59) -/
  | txSetData
  /-- `TxSetCmd()` (R59) -/
  | txSetCmd
  /-- `ClkDelay(ms)` (R61) -/
  | clkDelay (ms : Byte)
  /-- `SrcNext()`, carrying the byte returned (R17, R62) -/
  | srcNext (b : Byte)
  deriving DecidableEq, Repr

/-- The caller-contract violations of R203 that a run can record. V6, V9, V10 and V14 are refusals; V11 cannot arise. -/
inductive Violation where
  /-- V1: a table read outside the table's byte list (R90, R116). -/
  | tableOverrun
  /-- V2: a window outside the display (R133 a). -/
  | windowOutside
  /-- V3: pixels streamed into an armed window differ in number from its area (R133 c, R241). -/
  | pixelCount
  /-- V3 as R145 words it: a FILLCOLOR whose count differs from what is left of the armed window (R147; log 16). -/
  | fillCount
  /-- V4: SENDWORDS or FILLCOLOR with no window armed (R133 b). -/
  | noWindow
  /-- V5: a data bracket opened twice, closed without being open, or left open (R141). -/
  | bracketPairing
  /-- V7: the BitSource has no byte left (R168 b). -/
  | sourceExhausted
  /-- V8: SETROT with a selector above 3 (R183). -/
  | rotationSelector
  /-- V12: FILLSCREEN while DS_VALID = 0 (R41). -/
  | displayStateUnset
  /-- V13: a command-sending request inside an open data bracket (R243). -/
  | commandInBracket
  deriving DecidableEq, Repr

/-- What is in progress between steps (the continuation R111 and R186 imply; log 8). -/
inductive Phase where
  /-- No request in progress. -/
  | idle
  /-- RUNSEQ over a table in TBL. -/
  | runseq
  /-- INIT, in its RUNSEQ(TABLE_RESET_OFF). -/
  | initReset
  /-- INIT, about to start RUNSEQ(TABLE_WAKE_ON). -/
  | initLoadWake
  /-- INIT, in its RUNSEQ(TABLE_WAKE_ON). -/
  | initWake
  /-- INIT, about to do SETROT(INIT_ROTATION). -/
  | initRotate
  deriving DecidableEq, Repr

/-- DisplayState (R22) and its validity flag (R23). -/
structure DisplayState where
  /-- DS_WIDTH -/
  width : Word
  /-- DS_HEIGHT -/
  height : Word
  /-- DS_ROT -/
  rot : BitVec 2
  /-- DS_VALID -/
  valid : Bool
  deriving DecidableEq, Repr

/-- The command sequencer (R27, R28). -/
structure Sequencer where
  /-- What the sequencer is doing (log 8). -/
  phase : Phase
  /-- TP, the table cursor -/
  tp : Nat
  /-- The index in the table's byte list of the record at TP: the `i` of R90 (log 7). -/
  pos : Nat
  /-- SQ_CMD -/
  cmd : Byte
  /-- SQ_ARG -/
  arg : Byte
  /-- SQ_IDX -/
  idx : Byte
  deriving DecidableEq, Repr

/-- The scratch buffer (R29). -/
structure Scratch where
  /-- SB[0 .. CAP-1] -/
  words : List Word
  /-- SB_LEN -/
  len : Nat
  deriving DecidableEq, Repr

/-- The blitter's working registers (R30). -/
structure Blitter where
  /-- BL_TOTAL -/
  total : DWord
  /-- BL_DONE -/
  done : DWord
  /-- BL_FG -/
  fg : Word
  /-- BL_BG -/
  bg : Word
  /-- BL_BYTE -/
  byte : Byte
  deriving DecidableEq, Repr

/-- The streamer's working registers (R31). -/
structure Streamer where
  /-- FC_COLOR -/
  color : Word
  /-- FC_REMAIN -/
  remain : DWord
  /-- SENDWORDS's position in its operand sequence -/
  pos : DWord
  deriving DecidableEq, Repr

/-- The operand latches (R32). -/
structure Latches where
  /-- SETWIN's four coordinates -/
  x1 : Word
  y1 : Word
  x2 : Word
  y2 : Word
  /-- DRAWBITMAP's dimensions and origin -/
  width : Word
  height : Word
  originX : Word
  originY : Word
  /-- SETROT's selector -/
  r : Byte
  /-- RUNSEQ's table address -/
  table : Nat
  deriving DecidableEq, Repr

/-- The ghost state of R37 and R38: not hardware, used only to record violations. R41 calls the CW values meaningless while
CW_ARMED = 0; what they hold then is the model's choice (log 28). -/
structure Ghost where
  /-- DM_OPEN -/
  dmOpen : Bool
  /-- CW_X1, CW_Y1, CW_X2, CW_Y2 -/
  x1 : Word
  y1 : Word
  x2 : Word
  y2 : Word
  /-- CW_ARMED -/
  armed : Bool
  /-- CW_COUNT -/
  count : Nat
  deriving DecidableEq, Repr

/-- The command-table space TBL (R50, R51): address and byte pairs, addresses strictly rising. An unlisted address has no
value (log 7). -/
abbrev Memory := List Host.Cell

/-- Where a command table stands in TBL: the byte list that a model takes with a table's address (R52, decision D14;
log 7). -/
structure TableExtent where
  /-- The address of its first byte. -/
  base : Nat
  /-- How many bytes it has. -/
  length : Nat
  deriving DecidableEq, Repr

/-- The complete state (R20), the ghost state, the inputs and the record of the execution. -/
structure State where
  /-- The parameters of R8; no step changes them (R40). -/
  cfg : Config
  /-- DisplayState and DS_VALID. -/
  ds : DisplayState
  /-- BUSY (R36). -/
  busy : Bool
  /-- TP, SQ_CMD, SQ_ARG, SQ_IDX and the phase. -/
  seq : Sequencer
  /-- SB and SB_LEN. -/
  sb : Scratch
  /-- BL_TOTAL, BL_DONE, BL_FG, BL_BG, BL_BYTE. -/
  bl : Blitter
  /-- FC_COLOR, FC_REMAIN and SENDWORDS's position. -/
  fc : Streamer
  /-- The operand latches. -/
  lat : Latches
  /-- DM_OPEN and CW_*. -/
  ghost : Ghost
  /-- TBL; no step changes it (R51). -/
  tbl : Memory
  /-- The byte lists of the tables in TBL, the first entry for an address counting; no step changes them (log 7). -/
  tables : List TableExtent
  /-- The bytes the BitSource still holds (R39; log 9). -/
  source : List Byte
  /-- The bytes of the requests the host still has to present (R17, R80; log 10). -/
  script : List Byte
  /-- The events issued so far, newest first (R17; log 25). -/
  revTrace : List Event
  /-- The sticky fault mark (R204): the violations recorded, in order, each once. -/
  violations : List Violation
  deriving DecidableEq, Repr

/-- The trace (R17): the events in the order they were issued. -/
def State.trace (s : State) : List Event := s.revTrace.reverse

/-- Where a run stops for good. Each carries the state it leaves, with the events already issued (R219). -/
inductive Fault where
  /-- V1. Raised by a step that reads a byte outside the table (R116, U1: "fault at the first TBL read outside the
  table's byte list"). Safe: the hardware reads on. -/
  | tableOverrun (left : State)
  /-- V7. Raised by DRAWBITMAP when `SrcNext()` has no answer (R168 b, U4: "stuck"). Safe: undefined in the document. -/
  | sourceExhausted (left : State)
  /-- V12. Raised by FILLSCREEN while DS_VALID = 0 (R41, U10: "reading one is a fault"). Safe: the hardware uses
  unspecified values. -/
  | displayStateUnset (left : State)
  deriving DecidableEq, Repr

/-- What has no meaning. -/
inductive Refusal where
  /-- An instruction without a meaning yet; no arm of exec answers it. -/
  | notModelled (mnemonic : String)
  /-- V6. Raised by DRAWBITMAP (R168 a, U6: "refuse"). Safe. -/
  | bitmapNotWholeBytes
  /-- V9. Raised by every request while BUSY = 1 (R36, U7). Safe; no step presents one. -/
  | requestWhileBusy
  /-- V10, and a CAP and MARGIN that break R10. Raised by every step ("refuse to build the configuration", U8). Safe. -/
  | illFormedConfig
  /-- V14. Raised by the fetch of a request (R83, U12: "refuse"). Safe. -/
  | reservedSelector (op : Byte)
  /-- Raised by the fetch when the host's bytes end inside a request (log 14). Safe. -/
  | truncatedRequest
  /-- Raised by the fetch when RUNSEQ's operand has more than TBL_ADDR_BITS bits (log 14). Safe. -/
  | tableAddressTooWide
  deriving DecidableEq, Repr

/-- The state after reset (R41): DS_VALID, BUSY, SB_LEN, DM_OPEN and CW_ARMED 0, nothing in progress, no input yet.
Every value R41 leaves unspecified is 0 here, a DESIGN CHOICE (log 3, unsafe). -/
def State.reset : State where
  cfg := Config.reset
  ds := ⟨0, 0, 0, false⟩
  busy := false
  seq := ⟨.idle, 0, 0, 0, 0, 0⟩
  sb := ⟨List.replicate Config.reset.cap 0, 0⟩
  bl := ⟨0, 0, 0, 0, 0⟩
  fc := ⟨0, 0, 0⟩
  lat := ⟨0, 0, 0, 0, 0, 0, 0, 0, 0, 0⟩
  ghost := ⟨false, 0, 0, 0, 0, false, 0⟩
  tbl := []
  tables := []
  source := []
  script := []
  revTrace := []
  violations := []

end Sys2Proof.Machine
end

