-- ==== Sys2Proof/Machine/Flags.lean ====
section
/-! DEFINITION. DISPCORE has no condition flags (rule R34); here are the sticky fault mark (rule R204) and the conditions of the violations it records (rule R203). -/

namespace Sys2Proof.Machine

/-- Records a violation once; nothing clears it (R204). -/
def mark (v : Violation) (s : State) : State :=
  if v ∈ s.violations then s else { s with violations := s.violations ++ [v] }

/-- Records a violation when a condition holds. -/
def markIf (c : Bool) (v : Violation) (s : State) : State := if c then mark v s else s

/-- R133 (a): the window lies inside the display. While DS_VALID = 0 no window does, and DS_WIDTH and DS_HEIGHT are not
read (R41; log 15). -/
def windowInside (x1 y1 x2 y2 : Word) (s : State) : Bool :=
  s.ds.valid && decide (x1.toNat ≤ x2.toNat) && decide (y1.toNat ≤ y2.toNat) &&
    decide (x2.toNat < s.ds.width.toNat) && decide (y2.toNat < s.ds.height.toNat)

/-- R168 (c): the destination rectangle, where it has a pixel, lies inside the display (log 15). -/
def bitmapInside (width height originX originY : Word) (s : State) : Bool :=
  decide (width = 0) || decide (height = 0) ||
    (s.ds.valid && decide (originX.toNat + width.toNat ≤ s.ds.width.toNat) &&
      decide (originY.toNat + height.toNat ≤ s.ds.height.toNat))

/-- The area of the ghost window, `(x2-x1+1)*(y2-y1+1)` (R133 c), 0 where a corner pair is out of order (log 16). -/
def windowArea (g : Ghost) : Nat :=
  (g.x2.toNat + 1 - g.x1.toNat) * (g.y2.toNat + 1 - g.y1.toNat)

/-- The pixels left of the ghost window (R145), 0 once they overrun it. -/
def windowLeft (g : Ghost) : Nat := windowArea g - g.count

/-- V3 at a point where streaming into the armed window ends (R133 c, R241): the next command, or the end of the execution. -/
def settleWindow (s : State) : State :=
  markIf (s.ghost.armed && decide (s.ghost.count ≠ windowArea s.ghost)) .pixelCount s

/-- V13: a command-sending request with a data bracket open (R141, R243). -/
def checkNoBracket (s : State) : State := markIf s.ghost.dmOpen .commandInBracket s

/-- V4: a pixel-streaming request with no window armed (R133 b). -/
def checkArmed (s : State) : State := markIf (!s.ghost.armed) .noWindow s

/-- V3 of FILLCOLOR as R145 words it: the count differs from what is left of the armed window (R147). It is recorded
under a name of its own, since R241 lets several requests fill a window (log 16). -/
def checkFill (count : Nat) (s : State) : State :=
  markIf (s.ghost.armed && decide (count ≠ windowLeft s.ghost)) .fillCount s

/-- What the end of an execution adds (R141, R254, vector X13): V5 where a bracket is left open, V3 where an armed window
is not filled exactly. -/
def endOfExecution (s : State) : State := settleWindow (markIf s.ghost.dmOpen .bracketPairing s)

end Sys2Proof.Machine
end

