-- ==== Sys2Proof/Machine/Memory.lean ====
section
/-! DEFINITION. The command-table space TBL (rules R50, R51) as a canonical list of cells. DISPCORE only reads it; the write is the loader's. -/

namespace Sys2Proof.Machine

/-- The byte at an address; an unlisted address has no value (R116, log 7). -/
def Memory.read : Memory → Nat → Option Byte
  | [], _ => none
  | (k, b) :: m, a => if k = a then some b else Memory.read m a

/-- Places one byte and keeps the addresses strictly rising. Used by the loader alone: "DISPCORE never writes TBL" (R51). -/
def Memory.write : Memory → Nat → Byte → Memory
  | [], a, b => [(a, b)]
  | (k, c) :: m, a, b =>
    if a < k then (a, b) :: (k, c) :: m
    else if a = k then (a, b) :: m
    else (k, c) :: Memory.write m a b

/-- The length of the byte list placed for a table address, 0 where none was (R52, decision D14). -/
def tableLength : List TableExtent → Nat → Nat
  | [], _ => 0
  | e :: es, a => if e.base = a then e.length else tableLength es a

/-- The canonical form: addresses strictly rising and inside the address space of `addrBits` bits. An unlisted address
reads as no value, so no entry can equal what an unlisted address reads as. -/
abbrev Memory.wf (addrBits : Nat) (m : Memory) : Prop :=
  m.Pairwise (fun x y => x.1 < y.1) ∧ ∀ c ∈ m, c.1 < 2 ^ addrBits

end Sys2Proof.Machine
end

