-- ==== Sys2Proof/Machine/Bits.lean ====
section
/-! DEFINITION. The constants of the configuration (rule R9) by their names, and the byte-order helpers (rules R12, R66, R85). -/

namespace Sys2Proof

/-- END_MARK (R9): the command byte that ends a table. -/
def endMark : Byte := Config.constants.endMark

/-- DELAY_MARK (R9): the command byte of a delay record. -/
def delayMark : Byte := Config.constants.delayMark

/-- ROT_CTRL[0..3] (R9, R181): the controller's control byte for each rotation. -/
def rotCtrl (r : BitVec 2) : Byte := Config.constants.rotCtrl[r.toNat]

/-- BITS_PER_SOURCE_BYTE (R9): the pixels of a source byte. -/
def pixelsPerByte : Nat := Config.constants.bitsPerSourceByte

/-- `hi8(v) = v[15:8]` (R12). -/
def hi8 (v : Word) : Byte := v.extractLsb' 8 8

/-- `lo8(v) = v[7:0]` (R12). -/
def lo8 (v : Word) : Byte := v.extractLsb' 0 8

/-- The word whose high byte is `h` and low byte is `l`, the inverse of the byte split of R85. -/
def joinWord (h l : Byte) : Word := h ++ l

/-- The high byte, then the low byte (R66, R85). -/
def wordBytes (v : Word) : List Byte := [hi8 v, lo8 v]

/-- The number whose base-256 digits are the bytes, most significant first. -/
def beNat (bs : List Byte) : Nat := bs.foldl (fun acc b => acc * 256 + b.toNat) 0

/-- `v` as `k` bytes, most significant first. -/
def beBytes : Nat → Nat → List Byte
  | 0, _ => []
  | k + 1, v => BitVec.ofNat 8 (v / 256 ^ k) :: beBytes k v

end Sys2Proof
end

