-- ==== Sys2Proof/Machine/Operands.lean ====
section
/-! DEFINITION. How operands become bytes, windows and colours (rules R82, R85, R161, R162, R164, R181). -/

namespace Sys2Proof.Machine

/-- The two data bytes of a 16-bit value, high byte first (R85). -/
def wordEvents (v : Word) : List Event := [.txData (hi8 v), .txData (lo8 v)]

/-- The exact 32-bit product of two zero-extended dimensions (R162, R149). -/
def pixelProduct (width height : Word) : DWord := width.setWidth 32 * height.setWidth 32

/-- BlitWindow (R161): the window DRAWBITMAP programs, all additions modulo 2^16. -/
def blitWindow (cfg : Config) (width height originX originY : Word) : Word × Word × Word × Word :=
  match cfg.blitWindow with
  | .literal => (originX, originY, originX + width, originY + height)
  | .inclusive => (originX, originY, originX + width - 1, originY + height - 1)
  | .supplied => Config.suppliedBlitWindow width height originX originY

/-- RotMap (R181): control byte, width and height for a rotation. -/
def rotMap (nativeW nativeH : Word) (r : BitVec 2) : Byte × Word × Word :=
  match r.toNat with
  | 0 => (rotCtrl r, nativeW, nativeH)
  | 1 => (rotCtrl r, nativeH, nativeW)
  | 2 => (rotCtrl r, nativeW, nativeH)
  | _ => (rotCtrl r, nativeH, nativeW)

/-- The colour of bit `k` of a source byte: foreground where it is 1 (R160, R164). -/
def bitColor (fg bg : Word) (b : Byte) (k : Nat) : Word := if b.getLsbD k then fg else bg

/-- The eight colour words of a source byte, most significant bit first (R67, R164). -/
def byteColors (fg bg : Word) (b : Byte) : List Word := (List.range pixelsPerByte).reverse.map (bitColor fg bg b)

/-- The table address `k` bytes after `a`, modulo 2^TBL_ADDR_BITS (R13). -/
def tableAddr (cfg : Config) (a k : Nat) : Nat := (a + k) % 2 ^ cfg.tblAddrBits

end Sys2Proof.Machine
end

