-- ==== Sys2Proof/Machine/Ops.lean ====
section
/-! DEFINITION. The operations every meaning is written over: the calls of rule R15, the window, the streamer with its flush policy, the table reads, the rotation, and accepting and completing a request. DISPCORE takes no exception and returns from none (rules R200, R209, R210), so no such operation exists. -/

namespace Sys2Proof.Machine

/-- The outcome of a meaning. -/
abbrev Result := Host.Outcome State Fault Refusal

/-- Appends one event to the trace (R15, R17). -/
def emit (e : Event) (s : State) : State := { s with revTrace := e :: s.revTrace }

/-- `TxCmd(b)` (R57). A command ends the streaming into an armed window (V3, R241) and disarms it (R38). The
CW values stay as they were while no window is armed, when R41 calls them meaningless (DESIGN CHOICE, log 28). -/
def txCmd (b : Byte) (s : State) : State :=
  let s1 := settleWindow s
  emit (.txCmd b) { s1 with ghost := { s1.ghost with armed := false } }

/-- `TxData(b)` (R58). -/
def txData (b : Byte) (s : State) : State := emit (.txData b) s

/-- `TxSetData()` (R59); the ghost bracket opens (R37). -/
def txSetData (s : State) : State := emit .txSetData { s with ghost := { s.ghost with dmOpen := true } }

/-- `TxSetCmd()` (R59); the ghost bracket closes (R37). -/
def txSetCmd (s : State) : State := emit .txSetCmd { s with ghost := { s.ghost with dmOpen := false } }

/-- `ClkDelay(ms)` (R61): an event, no duration. -/
def clkDelay (ms : Byte) (s : State) : State := emit (.clkDelay ms) s

/-- `SrcNext()` (R62): consumes the source's next byte; none where it has none (V7). -/
def srcNext (s : State) : Option (Byte × State) :=
  match s.source with
  | [] => none
  | b :: rest => some (b, emit (.srcNext b) { s with source := rest })

/-- A pair of data bytes received by an armed window (R38); V3 as soon as the pixels overrun it (R143). A request that
leaves the window short is no V3 of R241, which lets several requests fill it; R145's V3 of a short FILLCOLOR is
`checkFill`'s (log 16). A pixel sent while no window is armed is not counted: R41 calls CW_COUNT meaningless then (DESIGN
CHOICE, log 28). -/
def countPixel (s : State) : State :=
  if s.ghost.armed then
    let s1 := { s with ghost := { s.ghost with count := s.ghost.count + 1 } }
    markIf (decide (windowArea s1.ghost < s1.ghost.count)) .pixelCount s1
  else s

/-- One 16-bit word on the bus, high byte first (R66, R143). -/
def sendWord (w : Word) (s : State) : State := countPixel (txData (lo8 w) (txData (hi8 w) s))

/-- One turn of SENDWORDS's loop (R143): the word is sent and the position moves on (R31). -/
def sendNext (s : State) (w : Word) : State :=
  let s1 := sendWord w s
  { s1 with fc := { s1.fc with pos := s1.fc.pos + 1 } }

/-- SENDWORDS's loop (R143): each word in order, no buffering. -/
def sendWords (words : List Word) (s : State) : State :=
  words.foldl sendNext { s with fc := { s.fc with pos := 0 } }

/-- One turn of FILLCOLOR's loop (R145). -/
def fillNext (s : State) : State :=
  let s1 := sendWord s.fc.color s
  { s1 with fc := { s1.fc with remain := s1.fc.remain - 1 } }

/-- FILLCOLOR's loop (R145), `while FC_REMAIN != 0`; `fuel` bounds its iterations. -/
def fillLoop : Nat → State → State
  | 0, s => s
  | fuel + 1, s => if s.fc.remain = 0 then s else fillLoop fuel (fillNext s)

/-- FILLCOLOR (R145): loads FC_COLOR and FC_REMAIN and runs the loop. -/
def fillColor (color : Word) (count : DWord) (s : State) : State :=
  fillLoop count.toNat { s with fc := { s.fc with color := color, remain := count } }

/-- SETWIN (R130): the eleven events whatever the operands (R132); V2 recorded where the window is not inside the
display; the ghost window armed by the last event (R38). -/
def setWindow (x1 y1 x2 y2 : Word) (s : State) : State :=
  let s0 := markIf (!windowInside x1 y1 x2 y2 s) .windowOutside s
  let s1 := { s0 with lat := { s0.lat with x1 := x1, y1 := y1, x2 := x2, y2 := y2 } }
  let s2 := txCmd s.cfg.cmdColumnRange s1
  let s3 := txData (lo8 x2) (txData (hi8 x2) (txData (lo8 x1) (txData (hi8 x1) s2)))
  let s4 := txCmd s.cfg.cmdRowRange s3
  let s5 := txData (lo8 y2) (txData (hi8 y2) (txData (lo8 y1) (txData (hi8 y1) s4)))
  let s6 := txCmd s.cfg.cmdMemoryWrite s5
  { s6 with ghost := { s6.ghost with x1 := x1, y1 := y1, x2 := x2, y2 := y2, armed := true, count := 0 } }

/-- Append (R29): writes SB[SB_LEN], then increments SB_LEN. -/
def pushWord (w : Word) (s : State) : State :=
  { s with sb := { words := s.sb.words.set s.sb.len w, len := s.sb.len + 1 } }

/-- Flush (R152): sends SB[0 .. SB_LEN-1] in order and empties SB; the words stay. -/
def flush (s : State) : State :=
  let s1 := sendWords (s.sb.words.take s.sb.len) s
  { s1 with sb := { s1.sb with len := 0 } }

/-- FlushCheck (R152): flushes when SB_LEN exceeds CAP - MARGIN. -/
def flushCheck (s : State) : State := if s.cfg.cap - s.cfg.margin < s.sb.len then flush s else s

/-- The eight appends of a source byte, most significant bit first (R160). -/
def expandByte (s : State) : State :=
  (byteColors s.bl.fg s.bl.bg s.bl.byte).foldl (fun s w => pushWord w s) s

/-- What a turn of DRAWBITMAP's loop does with the byte it got (R160): load it, expand it, count its eight pixels, check
the flush. -/
def blitByte (b : Byte) (s : State) : State :=
  let s1 := expandByte { s with bl := { s.bl with byte := b } }
  flushCheck { s1 with bl := { s1.bl with done := s1.bl.done + BitVec.ofNat 32 pixelsPerByte } }

/-- DRAWBITMAP's loop (R160), `while BL_DONE < BL_TOTAL`; `fuel` bounds its iterations. V7 where the source ends. -/
def blitLoop : Nat → State → Except Fault State
  | 0, s => .ok s
  | fuel + 1, s =>
    if s.bl.done < s.bl.total then
      match srcNext s with
      | none => .error (.sourceExhausted (mark .sourceExhausted s))
      | some (b, s1) => blitLoop fuel (blitByte b s1)
    else .ok s

/-- The rotation's two events, then DisplayState (R180, R182). -/
def rotate (r : BitVec 2) (s : State) : State :=
  let m := rotMap s.cfg.nativeW s.cfg.nativeH r
  let s1 := txData m.1 (txCmd s.cfg.cmdMemAccessCtrl s)
  { s1 with ds := { width := m.2.1, height := m.2.2, rot := r, valid := true } }

/-- The byte `k` places after TP of the table being run; none outside the table's byte list (V1: R27, R90, R116). A host's
RUNSEQ reads TBL, the byte list being the run of addresses placed for the latched table address (R51; log 7); INIT's two
runs read the configuration's tables (R52; log 6). The index in the list, not TP, tells where the list ends. -/
def tableByte (s : State) (k : Nat) : Option Byte :=
  let i := s.seq.pos + k
  match s.seq.phase with
  | .initReset => s.cfg.tableResetOff[i]?
  | .initWake => s.cfg.tableWakeOn[i]?
  | _ =>
    if i < tableLength s.tables s.lat.table ∧ s.lat.table + i < 2 ^ s.cfg.tblAddrBits then
      Memory.read s.tbl (tableAddr s.cfg s.seq.tp k)
    else none

/-- Up to `n` bytes of the table from the place `k` after TP on, ending where one has no value. -/
def tableBytes (s : State) : Nat → Nat → List Byte
  | 0, _ => []
  | n + 1, k =>
    match tableByte s k with
    | none => []
    | some b => b :: tableBytes s n (k + 1)

/-- The bytes RUNSEQ reads for the record at TP, and no others (R51, R87, R111): the command byte, the second byte unless
the command is END, the parameters of a command record. It is cut short where a byte has no value. -/
def recordBytes (s : State) : List Byte :=
  match tableByte s 0 with
  | none => []
  | some c =>
    if c = endMark then [c]
    else
      match tableByte s 1 with
      | none => [c]
      | some a =>
        if c = delayMark then [c, a]
        else c :: a :: tableBytes s a.toNat 2

/-- TP <- TP + k (R13, R27), and the index in the table's byte list with it. -/
def advanceTp (k : Nat) (s : State) : State :=
  { s with seq := { s.seq with tp := tableAddr s.cfg s.seq.tp k, pos := s.seq.pos + k } }

/-- One parameter of a command record (R114): sent, and SQ_IDX moves on (R28). -/
def sendParam (s : State) (p : Byte) : State :=
  let s1 := txData p s
  { s1 with seq := { s1.seq with idx := s1.seq.idx + 1 } }

/-- The parameters of a command record in table order (R114). -/
def sendParams (params : List Byte) (s : State) : State :=
  params.foldl sendParam { s with seq := { s.seq with idx := 0 } }

/-- Loads SQ_CMD and SQ_ARG (R28). -/
def loadRecord (c a : Byte) (s : State) : State := { s with seq := { s.seq with cmd := c, arg := a } }

/-- Starts a run of the sequencer at a table address (R111: `TP <- table`), at index 0 of the table's byte list (R90). -/
def startTable (p : Phase) (table : Nat) (s : State) : State :=
  { s with seq := { s.seq with phase := p, tp := tableAddr s.cfg table 0, pos := 0 } }

/-- What follows a finished table run (R111, R186; log 8). -/
def Phase.afterEnd : Phase → Phase
  | .runseq => .idle
  | .initReset => .initLoadWake
  | .initWake => .initRotate
  | .idle => .idle
  | .initLoadWake => .initLoadWake
  | .initRotate => .initRotate

/-- The sequencer stops (R112): TP stays; BUSY falls unless INIT has more to do (R36). -/
def stopTable (s : State) : State :=
  { s with seq := { s.seq with phase := s.seq.phase.afterEnd },
           busy := s.busy && decide (s.seq.phase.afterEnd ≠ .idle) }

/-- What a record cut short leaves (V1, R116, vectors Q7 to Q9): the events issued before the first byte without a value
(R219), the violation recorded. -/
def overrun (bytes : List Byte) (s : State) : State :=
  mark .tableOverrun
    (match bytes with
    | [] => s
    | [c] => { s with seq := { s.seq with cmd := c } }
    | c :: a :: params => sendParams params (txCmd c (loadRecord c a s)))

/-- Accepts a request (R80, R36): only while BUSY = 0 (else V9), and BUSY = 1 from then on. -/
def accept (s : State) (k : State → Result) : Result :=
  if s.busy then .refused .requestWhileBusy else k { s with busy := true }

/-- Normal completion (R36): BUSY falls. -/
def complete (s : State) : Result := .next { s with busy := false }

end Sys2Proof.Machine
end

