-- ==== Sys2Proof/Machine/Blit.lean ====
section
/-! DEFINITION. The bitmap blitter: DRAWBITMAP (rule R160). -/

namespace Sys2Proof.Machine

/-- What DRAWBITMAP does before its loop (R160): latches, the window, the bracket, the working registers. V13 with a
bracket open; V2 where the destination rectangle leaves the display (R168 c). -/
def beginBitmap (width height originX originY foreground background : Word) (s : State) : State :=
  let s1 := markIf (!bitmapInside width height originX originY s) .windowOutside (checkNoBracket s)
  let s2 := { s1 with
    lat := { s1.lat with width := width, height := height, originX := originX, originY := originY } }
  let win := blitWindow s.cfg width height originX originY
  let s3 := txSetData (setWindow win.1 win.2.1 win.2.2.1 win.2.2.2 s2)
  { s3 with
    bl := { s3.bl with total := pixelProduct width height, done := 0, fg := foreground, bg := background },
    sb := { s3.sb with len := 0 } }

/-- DRAWBITMAP (R160). Refused when width*height is not a multiple of 8 (V6, R168 a); stuck when the BitSource runs out
(V7). The loop runs at most width*height/8 times (R163). -/
def execDrawbitmap (width height originX originY foreground background : Word) (s : State) : Result :=
  accept s fun s =>
    if (pixelProduct width height).toNat % pixelsPerByte = 0 then
      match blitLoop ((pixelProduct width height).toNat / pixelsPerByte)
          (beginBitmap width height originX originY foreground background s) with
      | .ok s1 => complete (txSetCmd (flush s1))
      | .error f => .fault f
    else .refused .bitmapNotWholeBytes

end Sys2Proof.Machine
end

