-- ==== Sys2Proof/Machine/Rotation.lean ====
section
/-! DEFINITION. The rotation mapper and initialisation: INIT (rule R186) and SETROT (rule R180). -/

namespace Sys2Proof.Machine

/-- INIT (R186): starts RUNSEQ(TABLE_RESET_OFF). Its records are run by the following steps, then `initLoadWake` and
`initRotate` go on (log 8). RUNSEQ's table latch stays as it was: INIT's tables have no address in TBL (DESIGN CHOICE,
log 21). V13 with a bracket open. -/
def execInit (s : State) : Result :=
  accept s fun s => .next (startTable .initReset 0 (checkNoBracket s))

/-- INIT's second part (R186): RUNSEQ(TABLE_WAKE_ON). -/
def initLoadWake (s : State) : State := startTable .initWake 0 s

/-- INIT's last part (R186): SETROT(INIT_ROTATION), then BUSY falls. -/
def initRotate (s : State) : State :=
  let s1 := rotate s.cfg.initRotation
    { s with lat := { s.lat with r := s.cfg.initRotation.setWidth 8 } }
  { s1 with busy := false, seq := { s1.seq with phase := .idle } }

/-- SETROT (R180): for a selector of 0 to 3 the rotation; otherwise nothing but the recorded V8 (R183, conflict C2).
V13 with a bracket open. -/
def execSetrot (r : Byte) (s : State) : Result :=
  accept s fun s =>
    let s1 := checkNoBracket { s with lat := { s.lat with r := r } }
    complete (if r.toNat ≤ 3 then rotate (r.setWidth 2) s1 else mark .rotationSelector s1)

end Sys2Proof.Machine
end

