-- ==== Sys2Proof/Machine/Sequence.lean ====
section
/-! DEFINITION. The command sequencer: RUNSEQ (rule R111) and the records END, DELAY and CMD (rules R112 to R114). -/

namespace Sys2Proof.Machine

/-- RUNSEQ (R111): `TP <- table`, BUSY stays 1 and the following steps run one record each until END (log 8). V13 with a
bracket open. -/
def execRunseq (table : Nat) (s : State) : Result :=
  accept s fun s =>
    .next (startTable .runseq table (checkNoBracket { s with lat := { s.lat with table := table } }))

/-- END (R112): no event, no further byte read, TP not advanced; the run stops. -/
def execEndRec (s : State) : Result :=
  .next (stopTable { s with seq := { s.seq with cmd := endMark } })

/-- DELAY (R113): one `ClkDelay(ms)` and nothing on the bus, then TP <- TP + 2. -/
def execDelay (ms : Byte) (s : State) : Result :=
  .next (advanceTp 2 (clkDelay ms (loadRecord delayMark ms s)))

/-- CMD (R114): `TxCmd(c)`, the parameters in table order, then TP <- TP + 2 + len. -/
def execCmd (c : Byte) (params : List Byte) (s : State) : Result :=
  .next (advanceTp (2 + params.length)
    (sendParams params (txCmd c (loadRecord c (BitVec.ofNat 8 params.length) s))))

end Sys2Proof.Machine
end

