-- ==== Sys2Proof/Machine/Stream.lean ====
section
/-! DEFINITION. The pixel streamer: BEGINDATA, ENDDATA, SENDWORDS, FILLCOLOR and FILLSCREEN (rules R140 to R150). -/

namespace Sys2Proof.Machine

/-- BEGINDATA (R140): one `TxSetData()` whatever the state; V5 when a bracket is open. -/
def execBegindata (s : State) : Result :=
  accept s fun s => complete (txSetData (markIf s.ghost.dmOpen .bracketPairing s))

/-- ENDDATA (R142): one `TxSetCmd()` whatever the state; V5 when no bracket is open. -/
def execEnddata (s : State) : Result :=
  accept s fun s => complete (txSetCmd (markIf (!s.ghost.dmOpen) .bracketPairing s))

/-- SENDWORDS (R143): each word as two data bytes, high byte first; V4 when no window is armed. -/
def execSendwords (words : List Word) (s : State) : Result :=
  accept s fun s => complete (sendWords words (checkArmed s))

/-- FILLCOLOR (R145): the colour `count` times; V4 when no window is armed; V3 when `count` differs from what is left of
the armed window, beside the V3 of R241 that `countPixel` and `settleWindow` record (log 16). -/
def execFillcolor (color : Word) (count : DWord) (s : State) : Result :=
  accept s fun s => complete (fillColor color count (checkFill count.toNat (checkArmed s)))

/-- FILLSCREEN (R149): the window of the whole screen, then width*height times the colour, inside a bracket when
FILLSCREEN_BRACKET is true (R150). While DS_VALID = 0 it faults (V12 of R203, U10: "no value; reading
one is a fault"; log 11). V13 with a bracket open. -/
def execFillscreen (color : Word) (s : State) : Result :=
  accept s fun s =>
    if s.ds.valid then
      let s1 := setWindow 0 0 (s.ds.width - 1) (s.ds.height - 1) (checkNoBracket s)
      let s2 := if s.cfg.fillscreenBracket then txSetData s1 else s1
      let s3 := fillColor color (pixelProduct s.ds.width s.ds.height) s2
      complete (if s.cfg.fillscreenBracket then txSetCmd s3 else s3)
    else .fault (.displayStateUnset (mark .displayStateUnset (checkNoBracket s)))

end Sys2Proof.Machine
end

