-- ==== Sys2Proof/Machine/Window.lean ====
section
/-! DEFINITION. The address window controller: SETWIN (rule R130). -/

namespace Sys2Proof.Machine

/-- SETWIN (R130, R131, R132): the eleven events whatever the operands. V2 and V13 are recorded, not enforced. -/
def execSetwin (x1 y1 x2 y2 : Word) (s : State) : Result :=
  accept s fun s => complete (setWindow x1 y1 x2 y2 (checkNoBracket s))

end Sys2Proof.Machine
end

