-- ==== Sys2Proof/Syntax.lean ====
section
/-! DEFINITION. The instruction set of DISPCORE: the ten host requests (rule R81) and the three command-table records (rule R86). -/

namespace Sys2Proof

/-- One constructor per row of spec/opcode_table.json, operands in the order of R81 and R86. -/
inductive Instr where
  /-- INIT (R186) -/
  | init
  /-- RUNSEQ (R111): the TBL address of the first byte of a command table -/
  | runseq (table : Nat)
  /-- SETWIN (R130) -/
  | setwin (x1 y1 x2 y2 : Word)
  /-- BEGINDATA (R140) -/
  | begindata
  /-- ENDDATA (R142) -/
  | enddata
  /-- SENDWORDS (R143): `n` is the list's length -/
  | sendwords (words : List Word)
  /-- FILLCOLOR (R145) -/
  | fillcolor (color : Word) (count : DWord)
  /-- FILLSCREEN (R149) -/
  | fillscreen (color : Word)
  /-- DRAWBITMAP (R160); the source is the BitSource capability, not a field -/
  | drawbitmap (width height originX originY foreground background : Word)
  /-- SETROT (R180) -/
  | setrot (r : Byte)
  /-- END (R112) -/
  | endRec
  /-- DELAY (R113) -/
  | delay (ms : Byte)
  /-- CMD (R114): `len` is the parameter list's length -/
  | cmd (c : Byte) (params : List Byte)
  deriving DecidableEq, Repr

/-- Whether the row is a request of format REQ (R81) rather than a record of format REC (R86). -/
def Instr.isRequest : Instr → Bool
  | .init => true
  | .runseq _ => true
  | .setwin _ _ _ _ => true
  | .begindata => true
  | .enddata => true
  | .sendwords _ => true
  | .fillcolor _ _ => true
  | .fillscreen _ => true
  | .drawbitmap _ _ _ _ _ _ => true
  | .setrot _ => true
  | .endRec => false
  | .delay _ => false
  | .cmd _ _ => false

end Sys2Proof
end

