-- ==== Sys2Proof/Machine/Dispatch.lean ====
section
/-! DEFINITION. One arm per constructor of Instr, each a direct call of the instruction's meaning. -/

namespace Sys2Proof.Machine

def exec (i : Instr) (s : State) : Host.Outcome State Fault Refusal :=
  match i with
  | .init => Sys2Proof.Machine.execInit s
  | .runseq table => Sys2Proof.Machine.execRunseq table s
  | .setwin x1 y1 x2 y2 => Sys2Proof.Machine.execSetwin x1 y1 x2 y2 s
  | .begindata => Sys2Proof.Machine.execBegindata s
  | .enddata => Sys2Proof.Machine.execEnddata s
  | .sendwords words => Sys2Proof.Machine.execSendwords words s
  | .fillcolor color count => Sys2Proof.Machine.execFillcolor color count s
  | .fillscreen color => Sys2Proof.Machine.execFillscreen color s
  | .drawbitmap w h ox oy fg bg => Sys2Proof.Machine.execDrawbitmap w h ox oy fg bg s
  | .setrot r => Sys2Proof.Machine.execSetrot r s
  | .endRec => Sys2Proof.Machine.execEndRec s
  | .delay ms => Sys2Proof.Machine.execDelay ms s
  | .cmd c params => Sys2Proof.Machine.execCmd c params s

end Sys2Proof.Machine
end

