-- ==== Sys2Proof/WellFormed.lean ====
section
/-! DEFINITION. Well-formedness of instructions (rules R81, R89, R119), of command tables (rule R90) and of the configuration (rules R8, R10, R189). -/

namespace Sys2Proof

/-- An instruction its encoding can spell: a table address of TBL_ADDR_BITS bits (R81), fewer than 2^32 words (R11),
a command byte that is neither mark (R89) and at most 255 parameters (R119). -/
def Instr.wf (addrBits : Nat) : Instr → Bool
  | .init => true
  | .runseq table => decide (table < 2 ^ addrBits)
  | .setwin _ _ _ _ => true
  | .begindata => true
  | .enddata => true
  | .sendwords words => decide (words.length < 2 ^ 32)
  | .fillcolor _ _ => true
  | .fillscreen _ => true
  | .drawbitmap _ _ _ _ _ _ => true
  | .setrot _ => true
  | .endRec => true
  | .delay _ => true
  | .cmd c params => decide (c ≠ endMark) && decide (c ≠ delayMark) && decide (params.length < 256)

/-- The parse of R90 from index `i`: the index of the terminator, or none where it would read at or beyond the length of `T`.
`fuel` bounds the number of records. -/
def tableStop (T : List Byte) : Nat → Nat → Option Nat
  | 0, _ => none
  | fuel + 1, i =>
    match T[i]? with
    | none => none
    | some c =>
      if c = endMark then some i
      else
        match T[i + 1]? with
        | none => none
        | some a =>
          if c = delayMark then tableStop T fuel (i + 2)
          else if i + 2 + a.toNat ≤ T.length then tableStop T fuel (i + 2 + a.toNat)
          else none

/-- R90: the parse started at index 0 reaches its stop inside the byte sequence. A record has at least two bytes, so the
length bounds the number of records. -/
def tableWellFormed (T : List Byte) : Bool := (tableStop T (T.length + 1) 0).isSome

/-- R10: the largest value SB_LEN ever takes, `8 * (floor((CAP - MARGIN) / 8) + 1)`. -/
def Config.batch (cfg : Config) : Nat := pixelsPerByte * ((cfg.cap - cfg.margin) / pixelsPerByte + 1)

/-- The machine can be built (R8, R10, R189): native dimensions given, CAP and MARGIN within the constraint of R10, at
least one address bit. A configuration that fails this "is not a DISPCORE"; every step refuses it (V10). -/
def Config.built (cfg : Config) : Bool :=
  decide (cfg.nativeW ≠ 0) && decide (cfg.nativeH ≠ 0) && decide (cfg.margin ≤ cfg.cap) &&
    decide (cfg.batch ≤ cfg.cap) && decide (0 < cfg.tblAddrBits)

/-- Both tables of INIT are well-formed (R8). Not a condition of running: a malformed table is V1 when INIT reads past
it (R186). -/
def Config.tablesOk (cfg : Config) : Bool := tableWellFormed cfg.tableResetOff && tableWellFormed cfg.tableWakeOn

end Sys2Proof
end

