-- ==== Sys2Proof/Decode.lean ====
section
/-! DEFINITION. The decoders of the two formats REQ (rule R81) and REC (rule R86), total on any bytes and rejecting by name, and the encoder beside them. -/

namespace Sys2Proof

/-- Why bytes are no instruction. -/
inductive DecodeError where
  /-- The bytes end inside the instruction. -/
  | truncated
  /-- The first byte of a request is no selector 0x1 .. 0xA (R83, V14). -/
  | reservedSelector (op : Byte)
  /-- A RUNSEQ operand of 2^TBL_ADDR_BITS or more, in the spare bits of its last byte (log 1). -/
  | addressTooWide
  deriving DecidableEq, Repr

/-- How many bytes carry a table address of `addrBits` bits (log 1). -/
def addrBytes (addrBits : Nat) : Nat := (addrBits + 7) / 8

/-- The first `n` words of a byte list, high byte first, and the rest; none where the bytes end before. -/
def readWords : Nat → List Byte → Option (List Word × List Byte)
  | 0, bs => some ([], bs)
  | n + 1, h :: l :: bs =>
    match readWords n bs with
    | none => none
    | some (ws, rest) => some (joinWord h l :: ws, rest)
  | _ + 1, _ => none

/-- RUNSEQ's operand (R81): a TBL address of TBL_ADDR_BITS bits, most significant byte first (log 1). -/
def decodeRunseq (addrBits : Nat) (bs : List Byte) : Except DecodeError (Instr × List Byte) :=
  if bs.length < addrBytes addrBits then .error .truncated
  else
    let table := beNat (bs.take (addrBytes addrBits))
    if table < 2 ^ addrBits then .ok (.runseq table, bs.drop (addrBytes addrBits)) else .error .addressTooWide

/-- SENDWORDS's operands (R81): the 32-bit count, then that many words. -/
def decodeSendwords (bs : List Byte) : Except DecodeError (Instr × List Byte) :=
  match bs with
  | n3 :: n2 :: n1 :: n0 :: rest =>
    match readWords (beNat [n3, n2, n1, n0]) rest with
    | none => .error .truncated
    | some (ws, rest') => .ok (.sendwords ws, rest')
  | _ => .error .truncated

/-- SETWIN's operands (R81). -/
def decodeSetwin (bs : List Byte) : Except DecodeError (Instr × List Byte) :=
  match readWords 4 bs with
  | some ([x1, y1, x2, y2], rest) => .ok (.setwin x1 y1 x2 y2, rest)
  | _ => .error .truncated

/-- FILLCOLOR's operands (R81): the colour, then the 32-bit count. -/
def decodeFillcolor (bs : List Byte) : Except DecodeError (Instr × List Byte) :=
  match readWords 3 bs with
  | some ([color, hi, lo], rest) => .ok (.fillcolor color (hi ++ lo), rest)
  | _ => .error .truncated

/-- FILLSCREEN's operand (R81). -/
def decodeFillscreen (bs : List Byte) : Except DecodeError (Instr × List Byte) :=
  match readWords 1 bs with
  | some ([color], rest) => .ok (.fillscreen color, rest)
  | _ => .error .truncated

/-- DRAWBITMAP's operands (R81). -/
def decodeDrawbitmap (bs : List Byte) : Except DecodeError (Instr × List Byte) :=
  match readWords 6 bs with
  | some ([w, h, ox, oy, fg, bg], rest) => .ok (.drawbitmap w h ox oy fg bg, rest)
  | _ => .error .truncated

/-- SETROT's operand (R81). -/
def decodeSetrot (bs : List Byte) : Except DecodeError (Instr × List Byte) :=
  match bs with
  | r :: rest => .ok (.setrot r, rest)
  | [] => .error .truncated

/-- A request of format REQ (R81, R82): the selector alone tells the operation; the selector 0x0 and those above 0xA are
reserved (R83). The selector stands in a byte of its own, the fields follow most significant byte first (log 1). -/
def decodeRequest (addrBits : Nat) (bs : List Byte) : Except DecodeError (Instr × List Byte) :=
  match bs with
  | [] => .error .truncated
  | op :: rest =>
    match op.toNat with
    | 1 => .ok (.init, rest)
    | 2 => decodeRunseq addrBits rest
    | 3 => decodeSetwin rest
    | 4 => .ok (.begindata, rest)
    | 5 => .ok (.enddata, rest)
    | 6 => decodeSendwords rest
    | 7 => decodeFillcolor rest
    | 8 => decodeFillscreen rest
    | 9 => decodeDrawbitmap rest
    | 10 => decodeSetrot rest
    | _ => .error (.reservedSelector op)

/-- A record of format REC (R86), the three kinds told apart by the first byte in the rule's order: END, DELAY, CMD. -/
def decodeRecord (bs : List Byte) : Except DecodeError (Instr × List Byte) :=
  match bs with
  | [] => .error .truncated
  | c :: rest =>
    if c = endMark then .ok (.endRec, rest)
    else
      match rest with
      | [] => .error .truncated
      | a :: tail =>
        if c = delayMark then .ok (.delay a, tail)
        else if a.toNat ≤ tail.length then .ok (.cmd c (tail.take a.toNat), tail.drop a.toNat)
        else .error .truncated

/-- The records of a table before its END, by the decoder (R90, R119); none where the table is malformed. -/
def parseRecords : Nat → List Byte → Option (List Instr)
  | 0, _ => none
  | fuel + 1, bs =>
    match decodeRecord bs with
    | .error _ => none
    | .ok (.endRec, _) => some []
    | .ok (r, rest) =>
      match parseRecords fuel rest with
      | none => none
      | some rs => some (r :: rs)

/-- The tagged form of a table (R119). -/
def parseTable (T : List Byte) : Option (List Instr) := parseRecords (T.length + 1) T

/-- The bytes of an instruction, from the same tables (R81, R86). -/
def encode (addrBits : Nat) : Instr → List Byte
  | .init => [0x01]
  | .runseq table => 0x02 :: beBytes (addrBytes addrBits) table
  | .setwin x1 y1 x2 y2 => 0x03 :: [x1, y1, x2, y2].flatMap wordBytes
  | .begindata => [0x04]
  | .enddata => [0x05]
  | .sendwords words => 0x06 :: (beBytes 4 words.length ++ words.flatMap wordBytes)
  | .fillcolor color count => 0x07 :: (wordBytes color ++ beBytes 4 count.toNat)
  | .fillscreen color => 0x08 :: wordBytes color
  | .drawbitmap w h ox oy fg bg => 0x09 :: [w, h, ox, oy, fg, bg].flatMap wordBytes
  | .setrot r => [0x0A, r]
  | .endRec => [endMark]
  | .delay ms => [delayMark, ms]
  | .cmd c params => c :: BitVec.ofNat 8 params.length :: params

/-- The bytes of a word numbered as spec/opcode_table.json numbers its bits: byte 0 holds bits 7..0. -/
def leBytes : Nat → Nat → List Byte
  | 0, _ => []
  | k + 1, w => BitVec.ofNat 8 w :: leBytes k (w / 256)

/-- The bytes of `w` and zeros up to the longest record (257 bytes, R93), which no request with fixed fields exceeds. -/
def tableWordBytes (nbits w : Nat) : List Byte :=
  let n := (nbits + 7) / 8
  leBytes n w ++ List.replicate (257 - n) 0

/-- Whether a table word is read as a request: a first byte 0x01 .. 0x0F, the 4-bit selectors. 0x00 and everything from
0x10 is read as a record (log 2). -/
def isRequestWord (w : Nat) : Bool := decide (0 < w % 256) && decide (w % 256 < 16)

/-- The decoder of the format the word belongs to. -/
def decodeTableBytes (addrBits : Nat) (nbits w : Nat) : Except DecodeError (Instr × List Byte) :=
  if isRequestWord w then decodeRequest addrBits (tableWordBytes nbits w) else decodeRecord (tableWordBytes nbits w)

/-- The instruction the decoder reads from a word of spec/opcode_table.json, at the reset width of table addresses. -/
def decodeTableWord (nbits w : Nat) : Option Instr :=
  match decodeTableBytes Config.reset.tblAddrBits nbits w with
  | .ok (i, _) => some i
  | .error _ => none

/-- The bytes of the instruction a table word spells, and no more: what its fetch needs. -/
def tableInstrBytes (addrBits : Nat) (nbits w : Nat) : List Byte :=
  match decodeTableBytes addrBits nbits w with
  | .ok (_, rest) => (tableWordBytes nbits w).take ((tableWordBytes nbits w).length - rest.length)
  | .error _ => tableWordBytes nbits w

end Sys2Proof
end

