-- ==== Sys2Proof/Machine/Fetch.lean ====
section
/-! DEFINITION. What a step does before it runs an instruction: fetching a request from the host (rule R80) or a record at TP (rule R111), INIT's own continuation (rule R186), and placing an instruction where the fetch finds it. -/

namespace Sys2Proof.Machine

/-- What the fetch finds: an instruction to run, or an outcome without one. -/
inductive Fetched where
  /-- Run `i` in the state `s`. -/
  | run (i : Instr) (s : State)
  /-- Nothing to run: this is the step's outcome. -/
  | stop (o : Host.Outcome State Fault Refusal)

/-- Why the host's bytes are no request, as a refusal (R83, log 14). -/
def refusalOf : DecodeError → Refusal
  | .truncated => .truncatedRequest
  | .reservedSelector op => .reservedSelector op
  | .addressTooWide => .tableAddressTooWide

/-- The host presents its next request (R80); with none left the execution is over and DISPCORE waits (R17, R254; log 10). -/
def fetchRequest (s : State) : Fetched :=
  match s.script with
  | [] => .stop (.next (endOfExecution s))
  | _ :: _ =>
    match decodeRequest s.cfg.tblAddrBits s.script with
    | .ok (i, rest) => .run i { s with script := rest }
    | .error e => .stop (.refused (refusalOf e))

/-- The sequencer reads the record at TP (R111); V1 where a byte it needs has no value (R116). -/
def fetchRecord (s : State) : Fetched :=
  match decodeRecord (recordBytes s) with
  | .ok (i, _) => .run i s
  | .error _ => .stop (.fault (.tableOverrun (overrun (recordBytes s) s)))

/-- What a step finds to do. A configuration with which no DISPCORE can be built is refused (V10). -/
def fetch (s : State) : Fetched :=
  if s.cfg.built then
    match s.seq.phase with
    | .idle => fetchRequest s
    | .initLoadWake => .stop (.next (initLoadWake s))
    | .initRotate => .stop (.next (initRotate s))
    | .runseq => fetchRecord s
    | .initReset => fetchRecord s
    | .initWake => fetchRecord s
  else .stop (.refused .illFormedConfig)

/-- Places bytes in TBL from an address on. -/
def placeBytes (cfg : Config) : List Byte → Nat → Memory → Memory
  | [], _, m => m
  | b :: bs, a, m => placeBytes cfg bs (tableAddr cfg a 1) (Memory.write m (tableAddr cfg a 0) b)

/-- The instruction of a table word placed where the next step fetches: a request at the head of the host's script with
nothing in progress; a record in TBL at TP, a table of its own, with a host's RUNSEQ of it in progress (log 2, log 10). -/
def placeTableWord (s : State) (nbits w : Nat) : State :=
  let bytes := tableInstrBytes s.cfg.tblAddrBits nbits w
  if isRequestWord w then
    { s with script := bytes ++ s.script, busy := false, seq := { s.seq with phase := .idle } }
  else
    { s with
      tbl := placeBytes s.cfg bytes s.seq.tp s.tbl, tables := ⟨s.seq.tp, bytes.length⟩ :: s.tables, busy := true,
      seq := { s.seq with phase := .runseq, pos := 0 }, lat := { s.lat with table := s.seq.tp } }

end Sys2Proof.Machine
end

