-- ==== Sys2Proof/Machine/Step.lean ====
section
/-! DEFINITION. One step: a whole request (rule R80), one record of a table run (rule R111), or INIT's continuation (rule R186). -/

namespace Sys2Proof.Machine

/-- Fetches and runs. -/
def step (s : State) : Host.Outcome State Fault Refusal :=
  match fetch s with
  | .run i s' => exec i s'
  | .stop o => o

/-- The state in which the next step fetches exactly the instruction of a table word. -/
def State.withFetchWord (s : State) (nbits w : Nat) : State := placeTableWord s nbits w

end Sys2Proof.Machine
end

