-- ==== Sys2Proof/Safety.lean ====
section
/-! DEFINITION. The terms claims are stated in: what of a trace an observer sees (rule R17), the trace of a table (rule R115), a clean end of a run (rule R254), and the invariant of the state (rules R25, R29, R36, R76). -/

namespace Sys2Proof.Machine

/-- `k` steps, stopping at the first fault or refusal: the host's Core.run on this machine, over its own types. -/
def runSteps : Nat → State → Host.Outcome State Fault Refusal
  | 0, s => .next s
  | k + 1, s =>
    match step s with
    | .next s' => runSteps k s'
    | .fault r => .fault r
    | .refused r => .refused r

/-- The Transport projection (R17): the events with the `SrcNext` events removed. -/
def transport (es : List Event) : List Event :=
  es.filter fun e =>
    match e with
    | .srcNext _ => false
    | _ => true

/-- The bytes the BitSource answered (R62). -/
def sourceCalls (es : List Event) : List Byte :=
  es.filterMap fun e =>
    match e with
    | .srcNext b => some b
    | _ => none

/-- The events of a sequence of words (R143). -/
def wordsEvents (ws : List Word) : List Event := ws.flatMap wordEvents

/-- The eleven events of SETWIN (R130). -/
def windowEvents (cfg : Config) (x1 y1 x2 y2 : Word) : List Event :=
  [.txCmd cfg.cmdColumnRange, .txData (hi8 x1), .txData (lo8 x1), .txData (hi8 x2), .txData (lo8 x2),
   .txCmd cfg.cmdRowRange, .txData (hi8 y1), .txData (lo8 y1), .txData (hi8 y2), .txData (lo8 y2),
   .txCmd cfg.cmdMemoryWrite]

/-- trace(r) of a record (R115). -/
def recordEvents : Instr → List Event
  | .delay ms => [.clkDelay ms]
  | .cmd c params => .txCmd c :: params.map .txData
  | _ => []

/-- The trace of a table's records (R115). -/
def tableEvents (rs : List Instr) : List Event := rs.flatMap recordEvents

/-- The full trace of DRAWBITMAP's loop (R167): the source bytes in groups of `k` (the B/8 bytes of one batch), each
group's `SrcNext` events before its words; `n` bounds the number of groups. -/
def blitEvents (fg bg : Word) (k : Nat) : Nat → List Byte → List Event
  | 0, _ => []
  | n + 1, bytes =>
    if bytes = [] then []
    else
      (bytes.take k).map .srcNext ++ wordsEvents ((bytes.take k).flatMap (byteColors fg bg)) ++
        blitEvents fg bg k n (bytes.drop k)

/-- Whether the latest mode switch opened a bracket, the events newest first (R37). -/
def openBracket : List Event → Bool
  | [] => false
  | .txSetData :: _ => true
  | .txSetCmd :: _ => false
  | .txCmd _ :: es => openBracket es
  | .txData _ :: es => openBracket es
  | .clkDelay _ :: es => openBracket es
  | .srcNext _ :: es => openBracket es

/-- `T` is the byte list placed in TBL at address `base`, inside the address space (R51, R52). -/
def TableAt (s : State) (base : Nat) (T : List Byte) : Prop :=
  base + T.length ≤ 2 ^ s.cfg.tblAddrBits ∧ tableLength s.tables base = T.length ∧
    ∀ i, i < T.length → Memory.read s.tbl (base + i) = T[i]?

/-- The records a byte list spells before its END or its end, and the bytes from there on (R90); `fuel` bounds the number
of records. -/
def recordsBefore : Nat → List Byte → List Instr × List Byte
  | 0, bs => ([], bs)
  | fuel + 1, bs =>
    match decodeRecord bs with
    | .error _ => ([], bs)
    | .ok (.endRec, _) => ([], bs)
    | .ok (r, rest) => (r :: (recordsBefore fuel rest).1, (recordsBefore fuel rest).2)

/-- The events of a record cut short: its command and the parameters before the end of the byte list, nothing where its
second byte is missing (R111, R219; vectors Q7 to Q9). -/
def cutEvents : List Byte → List Event
  | [] => []
  | [_] => []
  | c :: _ :: params => .txCmd c :: params.map .txData

/-- An armed window holds as many pixels as its area (R133 c, R241). -/
def windowSettled (g : Ghost) : Prop := g.armed = true → g.count = windowArea g

/-- The end of a run (R254): BUSY = 0, SB_LEN = 0, no bracket open, no violation recorded, no request left; and none to
be recorded at the end, so an armed window is filled exactly (vector X13). -/
def State.AtRest (s : State) : Prop :=
  s.busy = false ∧ s.sb.len = 0 ∧ s.ghost.dmOpen = false ∧ windowSettled s.ghost ∧ s.violations = [] ∧ s.script = []

/-- DisplayState agrees with the table of R181 for the rotation it holds (R25). -/
def displayAgrees (cfg : Config) (ds : DisplayState) : Prop :=
  (ds.width, ds.height) =
    (if ds.rot = 0 ∨ ds.rot = 2 then (cfg.nativeW, cfg.nativeH) else (cfg.nativeH, cfg.nativeW))

/-- The invariant of the state between steps. -/
structure State.Inv (s : State) : Prop where
  /-- TBL keeps its canonical form (R51). -/
  tbl_wf : Memory.wf s.cfg.tblAddrBits s.tbl
  /-- SB has CAP words (R29). -/
  sb_cap : s.sb.words.length = s.cfg.cap
  /-- SB is empty (R76). -/
  sb_empty : s.sb.len = 0
  /-- BUSY is 1 exactly while a request is in progress (R36). -/
  busy_iff : s.busy = decide (s.seq.phase ≠ .idle)
  /-- TP is a table address (R27). -/
  tp_lt : s.seq.tp < 2 ^ s.cfg.tblAddrBits
  /-- TP is the table's base plus the index in its byte list, modulo 2^TBL_ADDR_BITS (R13, R27). -/
  tp_pos : (s.seq.phase = .runseq → s.seq.tp = (s.lat.table + s.seq.pos) % 2 ^ s.cfg.tblAddrBits) ∧
    (s.seq.phase = .initReset ∨ s.seq.phase = .initWake → s.seq.tp = s.seq.pos % 2 ^ s.cfg.tblAddrBits)
  /-- DS_WIDTH > 0 and DS_HEIGHT > 0 once valid (R25). -/
  ds_pos : s.ds.valid = true → s.ds.width ≠ 0 ∧ s.ds.height ≠ 0
  /-- DS_WIDTH and DS_HEIGHT are those of the rotation (R25). -/
  ds_agrees : s.ds.valid = true → displayAgrees s.cfg s.ds
  /-- No violation is recorded twice (R204). -/
  marks_nodup : s.violations.Nodup

end Sys2Proof.Machine
end

