-- ==== Sys2Proof/Certificates/Slice0/Obligations.lean ====
section
/-! DEFINITION. The statements about the model, from the numbered rules of spec/. -/

open Sys2Proof Sys2Proof.Machine

/-! ### Encoding and decoding -/

/-- O1. Every request its encoding can spell is decoded back from its bytes, whatever bytes follow, for every width of a
table address (R81, R82). The packing into bytes is the model's choice (log 1). -/
def Obligations.RequestRoundTrip : Prop :=
  ∀ (bits : Nat) (i : Instr) (rest : List Byte),
    i.isRequest = true → i.wf bits = true → decodeRequest bits (encode bits i ++ rest) = .ok (i, rest)

/-- O2. Every record its encoding can spell is decoded back from its bytes, whatever bytes follow (R86 to R89). -/
def Obligations.RecordRoundTrip : Prop :=
  ∀ (bits : Nat) (i : Instr) (rest : List Byte),
    i.isRequest = false → i.wf bits = true → decodeRecord (encode bits i ++ rest) = .ok (i, rest)

/-- O3. What the decoders accept is well-formed, and of the format they read (R81, R86, R119). -/
def Obligations.DecodedIsWellFormed : Prop :=
  (∀ (bits : Nat) (bs rest : List Byte) (i : Instr),
      decodeRequest bits bs = .ok (i, rest) → i.isRequest = true ∧ i.wf bits = true) ∧
  (∀ (bits : Nat) (bs rest : List Byte) (i : Instr),
      decodeRecord bs = .ok (i, rest) → i.isRequest = false ∧ i.wf bits = true)

/-- O4. A record decoded from bytes takes as many bytes as R91 says: 1, 2 or 2 + byte 1, and leaves the rest. -/
def Obligations.RecordLength : Prop :=
  ∀ (bs rest : List Byte) (i : Instr), decodeRecord bs = .ok (i, rest) →
    match i with
    | .endRec => bs = endMark :: rest
    | .delay ms => bs = delayMark :: ms :: rest
    | .cmd c params => bs = c :: BitVec.ofNat 8 params.length :: (params ++ rest) ∧ c ≠ endMark ∧ c ≠ delayMark
    | _ => False

/-- O5. Encodings decode to what they stand for: the records of program P1, the END of vector Q1 with the byte after it
left unread as in Q3, the record of vector Q5; and the requests of program P4 and vector T2, whose packing into bytes is
the model's choice (log 1). -/
def Obligations.SpecEncodingsDecode : Prop :=
  decodeRecord [0x3A, 0x01, 0x05] = .ok (.cmd 0x3A [0x05], []) ∧
  decodeRecord [0x55, 0x78] = .ok (.delay 120, []) ∧
  decodeRecord [0x00, 0xAA] = .ok (.endRec, [0xAA]) ∧
  decodeRecord [0x2A, 0x04, 0x00, 0x00, 0x00, 0xEF, 0x00] = .ok (.cmd 0x2A [0x00, 0x00, 0x00, 0xEF], [0x00]) ∧
  decodeRequest 32 [0x03, 0x00, 0x02, 0x00, 0x03, 0x00, 0x03, 0x00, 0x04] = .ok (.setwin 2 3 3 4, []) ∧
  decodeRequest 32 [0x0A, 0x01] = .ok (.setrot 1, [])

/-- O6. Every first byte that is none of the ten selectors is refused by name when the host presents it (R83). That
the selector has a byte of its own is the model's choice (logs 1 and 14). -/
def Obligations.ReservedSelectorsRefused : Prop :=
  ∀ (s : State) (op : Byte) (rest : List Byte),
    s.cfg.built = true → s.seq.phase = .idle → s.script = op :: rest → (op.toNat = 0 ∨ 10 < op.toNat) →
      step s = .refused (.reservedSelector op)

/-- O7. The index parse of R90 accepts exactly the tables the decoder reads as tagged records up to their END (R119). -/
def Obligations.WellFormedTableIffParses : Prop :=
  ∀ T : List Byte, tableWellFormed T = (parseTable T).isSome

/-- O8. The byte split and its inverse: a 16-bit value is its high byte times 256 plus its low byte (R12, R85). -/
def Obligations.ByteSplit : Prop :=
  (∀ v : Word, (hi8 v).toNat * 256 + (lo8 v).toNat = v.toNat ∧ joinWord (hi8 v) (lo8 v) = v) ∧
  (∀ v : Word, wordEvents v = [.txData (hi8 v), .txData (lo8 v)])

/-! ### A step runs the decoded instruction -/

/-- O9. With nothing in progress, a step runs the request the host's next bytes spell, those bytes consumed (R80;
logs 1 and 8). -/
def Obligations.StepRunsRequest : Prop :=
  ∀ (s : State) (i : Instr) (rest : List Byte),
    s.cfg.built = true → s.seq.phase = .idle → decodeRequest s.cfg.tblAddrBits s.script = .ok (i, rest) →
      step s = exec i { s with script := rest }

/-- O10. While a table is run, a step runs the record the bytes at TP spell (R111), those of the
table's own byte list (logs 6 and 7). -/
def Obligations.StepRunsRecord : Prop :=
  ∀ (s : State) (i : Instr) (rest : List Byte),
    s.cfg.built = true → (s.seq.phase = .runseq ∨ s.seq.phase = .initReset ∨ s.seq.phase = .initWake) →
      decodeRecord (recordBytes s) = .ok (i, rest) → step s = exec i s

/-- O11. INIT's own steps (R186; log 8): after the first table, TP is at the start of the second, index 0 of its byte
list by the model's choice (log 6); after the second, the rotation of INIT_ROTATION is done and BUSY falls. That SETROT's
latch keeps the selector afterwards is the model's choice (log 21), and so are the CW values the disarmed window keeps
(log 28). -/
def Obligations.InitContinues : Prop :=
  (∀ s : State, s.cfg.built = true → s.seq.phase = .initLoadWake →
    step s = .next { s with seq := { s.seq with phase := .initWake, tp := 0, pos := 0 } }) ∧
  (∀ s : State, s.cfg.built = true → s.seq.phase = .initRotate →
    ∃ t, step s = .next t ∧
      t.trace = s.trace ++ [.txCmd s.cfg.cmdMemAccessCtrl, .txData (rotCtrl s.cfg.initRotation)] ∧
      t.ds.valid = true ∧ t.ds.rot = s.cfg.initRotation ∧ displayAgrees s.cfg t.ds ∧ t.busy = false ∧
      t = { s with
        ds := t.ds, busy := false, seq := { s.seq with phase := .idle },
        lat := { s.lat with r := s.cfg.initRotation.setWidth 8 }, ghost := { s.ghost with armed := false },
        revTrace := t.revTrace, violations := t.violations })

/-- O12. A configuration with a native dimension or TBL_ADDR_BITS of 0 (R8, R189, V10), or with a CAP and MARGIN that
break R10, runs nothing: the spec refuses to build it, and that every step refuses it by name is the model's (log 22). -/
def Obligations.IllFormedConfigRefused : Prop :=
  ∀ s : State, (s.cfg.nativeW = 0 ∨ s.cfg.nativeH = 0 ∨ s.cfg.cap < s.cfg.margin ∨ s.cfg.cap < s.cfg.batch ∨
      s.cfg.tblAddrBits = 0) →
    step s = .refused .illFormedConfig

/-- O13. When the host has no request left the execution is over: the state stays, but for the violations its end adds
(R141, R254, vector X13; the area of a window out of order and where the requests stand: logs 16 and 10). -/
def Obligations.EndOfExecution : Prop :=
  ∀ s : State, s.cfg.built = true → s.seq.phase = .idle → s.script = [] →
    ∃ t, step s = .next t ∧ t = { s with violations := t.violations } ∧
      (s.ghost.dmOpen = true → .bracketPairing ∈ t.violations) ∧
      (s.ghost.armed = true → s.ghost.count ≠ windowArea s.ghost → .pixelCount ∈ t.violations) ∧
      (s.ghost.dmOpen = false → (s.ghost.armed = true → s.ghost.count = windowArea s.ghost) → t = s)

/-- O14. No request is accepted while BUSY = 1 (R36, V9; a refusal: log 13). -/
def Obligations.BusyRefusesRequests : Prop :=
  ∀ (i : Instr) (s : State), i.isRequest = true → s.busy = true → exec i s = .refused .requestWhileBusy

/-! ### The data bracket -/

/-- O15. BEGINDATA (R140): one event whatever the state, DM_OPEN becomes 1, V5 when a bracket is already open, and
nothing else changes. -/
def Obligations.BegindataResult : Prop :=
  ∀ s : State, s.busy = false →
    ∃ t, exec .begindata s = .next t ∧ t.trace = s.trace ++ [.txSetData] ∧
      (s.ghost.dmOpen = true → .bracketPairing ∈ t.violations) ∧
      (s.ghost.dmOpen = false → t.violations = s.violations) ∧
      t = { s with
        revTrace := t.revTrace, ghost := { s.ghost with dmOpen := true }, violations := t.violations }

/-- O16. ENDDATA (R142): one event whatever the state, DM_OPEN becomes 0, V5 when no bracket is open, and nothing else
changes. -/
def Obligations.EnddataResult : Prop :=
  ∀ s : State, s.busy = false →
    ∃ t, exec .enddata s = .next t ∧ t.trace = s.trace ++ [.txSetCmd] ∧
      (s.ghost.dmOpen = false → .bracketPairing ∈ t.violations) ∧
      (s.ghost.dmOpen = true → t.violations = s.violations) ∧
      t = { s with
        revTrace := t.revTrace, ghost := { s.ghost with dmOpen := false }, violations := t.violations }

/-! ### Streaming -/

/-- O17. SENDWORDS (R143, R144): two data bytes a word, high byte first, in order, and no other event; only the streamer's
position, the ghost pixel count and the fault mark change with the trace. The position kept afterwards is the model's
choice (log 21), and so is that words sent with no window armed leave the pixel count as it was (log 28). -/
def Obligations.SendwordsResult : Prop :=
  ∀ (ws : List Word) (s : State), s.busy = false →
    ∃ t, exec (.sendwords ws) s = .next t ∧ t.trace = s.trace ++ ws.flatMap wordEvents ∧
      t.trace.length = s.trace.length + 2 * ws.length ∧
      t = { s with
        revTrace := t.revTrace, fc := { s.fc with pos := BitVec.ofNat 32 ws.length },
        ghost := { s.ghost with count := if s.ghost.armed then s.ghost.count + ws.length else s.ghost.count },
        violations := t.violations }

/-- O18. FILLCOLOR (R145, R146): exactly `count` pairs (color>>8, color&0xFF) and no other event; the trace and the ghost
state are those of SENDWORDS of `count` copies. Its marks are those of that SENDWORDS and one more, R145's own V3, exactly
when a window is armed and `count` differs from what is left of it. That this one has a name of its own beside the V3 of
R241, which SENDWORDS shares, is the model's choice (log 16), and so is that FC_COLOR and FC_REMAIN keep the colour and 0
afterwards (log 21) and what the pixel count is with no window armed (log 28). -/
def Obligations.FillcolorResult : Prop :=
  ∀ (color : Word) (count : DWord) (s : State), s.busy = false →
    ∃ t u, exec (.fillcolor color count) s = .next t ∧
      exec (.sendwords (List.replicate count.toNat color)) s = .next u ∧
      t.trace = s.trace ++ (List.replicate count.toNat [Event.txData (hi8 color), Event.txData (lo8 color)]).flatten ∧
      t.trace.length = s.trace.length + 2 * count.toNat ∧
      t.trace = u.trace ∧ t.ghost = u.ghost ∧
      (∀ v, v ∈ t.violations ↔ v ∈ u.violations ∨
        (v = .fillCount ∧ s.ghost.armed = true ∧ count.toNat ≠ windowArea s.ghost - s.ghost.count)) ∧
      t = { s with
        revTrace := t.revTrace, fc := { s.fc with color := color, remain := 0 },
        ghost := t.ghost, violations := t.violations }

/-- O19. The marks of the streaming requests (R133 b, R143): V4 with no window armed, V3 when the words overrun the armed
window, none when they fit. A stream of no words and the area of a window out of order are the model's (logs 17 and 16). -/
def Obligations.StreamingViolations : Prop :=
  ∀ (ws : List Word) (s : State), s.busy = false →
    ∃ t, exec (.sendwords ws) s = .next t ∧
      (s.ghost.armed = false → .noWindow ∈ t.violations) ∧
      (s.ghost.armed = true → ws ≠ [] → windowArea s.ghost < s.ghost.count + ws.length → .pixelCount ∈ t.violations) ∧
      (s.ghost.armed = true → s.ghost.count + ws.length ≤ windowArea s.ghost → t.violations = s.violations)

/-- O20. FILLSCREEN with a valid DisplayState (R149, R150): SETWIN of the whole screen, then width*height times the
colour, inside a bracket when FILLSCREEN_BRACKET is true; DisplayState, SB, TBL, the source and the sequencer stay. That
FC_COLOR, FC_REMAIN and SETWIN's latches keep their last values afterwards is the model's choice (log 21). -/
def Obligations.FillscreenResult : Prop :=
  ∀ (color : Word) (s : State), s.busy = false → s.ds.valid = true →
    let n := s.ds.width.toNat * s.ds.height.toNat
    let pixels := (List.replicate n color).flatMap wordEvents
    ∃ t, exec (.fillscreen color) s = .next t ∧
      t.trace = s.trace ++ windowEvents s.cfg 0 0 (s.ds.width - 1) (s.ds.height - 1) ++
        (if s.cfg.fillscreenBracket then [.txSetData] ++ pixels ++ [.txSetCmd] else pixels) ∧
      t = { s with
        revTrace := t.revTrace, fc := { s.fc with color := color, remain := 0 },
        lat := { s.lat with x1 := 0, y1 := 0, x2 := s.ds.width - 1, y2 := s.ds.height - 1 },
        ghost :=
          { dmOpen := if s.cfg.fillscreenBracket then false else s.ghost.dmOpen, x1 := 0, y1 := 0,
            x2 := s.ds.width - 1, y2 := s.ds.height - 1, armed := true, count := n },
        violations := t.violations }

/-- O21. FILLSCREEN keeps the contracts V2, V3 and V4 by construction (R149, R241): it adds no violation, and leaves its
window filled exactly (log 16). -/
def Obligations.FillscreenKeepsContracts : Prop :=
  ∀ (color : Word) (s : State), s.busy = false → s.ds.valid = true → s.ds.width ≠ 0 → s.ds.height ≠ 0 →
    s.ghost.dmOpen = false → (s.ghost.armed = true → s.ghost.count = windowArea s.ghost) →
    ∃ t, exec (.fillscreen color) s = .next t ∧ t.violations = s.violations ∧ t.ghost.armed = true ∧
      t.ghost.count = windowArea t.ghost

/-- O22. FILLSCREEN while DS_VALID = 0 faults before any event, with V12 recorded (R41, R203; log 11). -/
def Obligations.FillscreenNeedsDisplayState : Prop :=
  ∀ (color : Word) (s : State), s.busy = false → s.ds.valid = false →
    ∃ u, exec (.fillscreen color) s = .fault (.displayStateUnset u) ∧ u.trace = s.trace ∧
      .displayStateUnset ∈ u.violations

/-! ### The address window -/

/-- O23. SETWIN (R130, R131): its eleven events in their fixed order for every value of the operands and of the state,
the ghost window armed at 0 pixels, and nothing else changed but the latches and the fault mark. That the latches keep
the coordinates afterwards is the model's choice (log 21). -/
def Obligations.SetwinResult : Prop :=
  ∀ (x1 y1 x2 y2 : Word) (s : State), s.busy = false →
    ∃ t, exec (.setwin x1 y1 x2 y2) s = .next t ∧
      t.trace = s.trace ++
        [.txCmd s.cfg.cmdColumnRange, .txData (hi8 x1), .txData (lo8 x1), .txData (hi8 x2), .txData (lo8 x2),
         .txCmd s.cfg.cmdRowRange, .txData (hi8 y1), .txData (lo8 y1), .txData (hi8 y2), .txData (lo8 y2),
         .txCmd s.cfg.cmdMemoryWrite] ∧
      t = { s with
        revTrace := t.revTrace, lat := { s.lat with x1 := x1, y1 := y1, x2 := x2, y2 := y2 },
        ghost := { dmOpen := s.ghost.dmOpen, x1 := x1, y1 := y1, x2 := x2, y2 := y2, armed := true, count := 0 },
        violations := t.violations }

/-- O24. The marks of SETWIN, all of them: V2 exactly when the window breaks R133 (a), which a window set while
DS_VALID = 0 does by the model's reading (log 15); V3 exactly when the window armed before was not filled (R133 c; log 16
for the area of a window out of order); V13 exactly when a bracket is open (R243). -/
def Obligations.SetwinViolations : Prop :=
  ∀ (x1 y1 x2 y2 : Word) (s : State), s.busy = false →
    ∃ t, exec (.setwin x1 y1 x2 y2) s = .next t ∧
      ∀ v, v ∈ t.violations ↔ v ∈ s.violations ∨
        (v = .windowOutside ∧
          ¬ (s.ds.valid = true ∧ x1.toNat ≤ x2.toNat ∧ x2.toNat < s.ds.width.toNat ∧ y1.toNat ≤ y2.toNat ∧
            y2.toNat < s.ds.height.toNat)) ∨
        (v = .pixelCount ∧ s.ghost.armed = true ∧ s.ghost.count ≠ windowArea s.ghost) ∨
        (v = .commandInBracket ∧ s.ghost.dmOpen = true)

/-! ### The blitter -/

/-- O25. Bit to colour (R164): pixel p of a bitmap is bit 7 - (p mod 8) of source byte p div 8, foreground where it is 1. -/
def Obligations.PixelColour : Prop :=
  ∀ (fg bg : Word) (bytes : List Byte) (p : Nat) (h : p / 8 < bytes.length),
    (bytes.flatMap (byteColors fg bg))[p]? = some (if (bytes[p / 8]).getLsbD (7 - p % 8) then fg else bg)

/-- O26. The window DRAWBITMAP programs under the two named readings (R161), additions modulo 2^16. -/
def Obligations.BlitWindowReadings : Prop :=
  ∀ (cfg : Config) (w h ox oy : Word),
    (cfg.blitWindow = .literal → blitWindow cfg w h ox oy = (ox, oy, ox + w, oy + h)) ∧
    (cfg.blitWindow = .inclusive → blitWindow cfg w h ox oy = (ox, oy, ox + w - 1, oy + h - 1)) ∧
    (cfg.blitWindow = .supplied → blitWindow cfg w h ox oy = Config.suppliedBlitWindow w h ox oy)

/-- O27. DRAWBITMAP with width*height a multiple of 8 and a source that answers (R160, R165, R166): the Transport
projection is SETWIN of the blit window, the bracket opened, the pixels of the source bytes in order, the bracket closed;
exactly width*height/8 bytes are consumed; SB is empty again; DisplayState, TBL, the sequencer and the script stay. That
the latches and the blitter's registers keep their last values afterwards is the model's choice (log 21). -/
def Obligations.DrawbitmapResult : Prop :=
  ∀ (w h ox oy fg bg : Word) (s : State), s.busy = false → s.cfg.built = true → s.sb.words.length = s.cfg.cap →
    w.toNat * h.toNat % 8 = 0 → w.toNat * h.toNat / 8 ≤ s.source.length →
    let n := w.toNat * h.toNat / 8
    let win := blitWindow s.cfg w h ox oy
    ∃ t, exec (.drawbitmap w h ox oy fg bg) s = .next t ∧
      transport t.trace = transport s.trace ++ windowEvents s.cfg win.1 win.2.1 win.2.2.1 win.2.2.2 ++ [.txSetData] ++
        ((s.source.take n).flatMap (byteColors fg bg)).flatMap wordEvents ++ [.txSetCmd] ∧
      sourceCalls t.trace = sourceCalls s.trace ++ s.source.take n ∧
      t.bl.total.toNat = w.toNat * h.toNat ∧ t.bl.done = t.bl.total ∧
      t = { s with
        revTrace := t.revTrace, violations := t.violations, source := s.source.drop n,
        sb := { words := t.sb.words, len := 0 }, fc := { s.fc with pos := t.fc.pos },
        bl := { total := t.bl.total, done := t.bl.done, fg := fg, bg := bg, byte := t.bl.byte },
        lat := { s.lat with
          x1 := win.1, y1 := win.2.1, x2 := win.2.2.1, y2 := win.2.2.2, width := w, height := h, originX := ox,
          originY := oy },
        ghost :=
          { dmOpen := false, x1 := win.1, y1 := win.2.1, x2 := win.2.2.1, y2 := win.2.2.2, armed := true,
            count := w.toNat * h.toNat } }

/-- O28. The full trace of DRAWBITMAP (R167): batches of B words, each batch's `SrcNext` events before its data bytes. -/
def Obligations.DrawbitmapInterleaving : Prop :=
  ∀ (w h ox oy fg bg : Word) (s : State), s.busy = false → s.cfg.built = true → s.sb.words.length = s.cfg.cap →
    w.toNat * h.toNat % 8 = 0 → w.toNat * h.toNat / 8 ≤ s.source.length →
    let n := w.toNat * h.toNat / 8
    let win := blitWindow s.cfg w h ox oy
    ∃ t, exec (.drawbitmap w h ox oy fg bg) s = .next t ∧
      t.trace = s.trace ++ windowEvents s.cfg win.1 win.2.1 win.2.2.1 win.2.2.2 ++ [.txSetData] ++
        blitEvents fg bg (s.cfg.batch / 8) n (s.source.take n) ++ [.txSetCmd]

/-- O29. What the Transport sees and what the source is asked do not depend on CAP, MARGIN or what SB held before (R53,
R167). -/
def Obligations.BufferSizeInvisible : Prop :=
  ∀ (w h ox oy fg bg : Word) (s : State) (cap margin : Nat) (sb : Scratch),
    s.cfg.built = true → s.sb.words.length = s.cfg.cap →
    ({ s.cfg with cap := cap, margin := margin } : Config).built = true → sb.words.length = cap →
    ∀ t, exec (.drawbitmap w h ox oy fg bg) s = .next t →
      ∃ u, exec (.drawbitmap w h ox oy fg bg) { s with cfg := { s.cfg with cap := cap, margin := margin }, sb := sb } =
          .next u ∧
        transport u.trace = transport t.trace ∧ sourceCalls u.trace = sourceCalls t.trace ∧ u.source = t.source ∧
        u.ds = t.ds ∧ u.violations = t.violations

/-- O30. SB never overflows (R10, R29, R163): in every turn of the loop SB_LEN rises by 8 to at most CAP, and after the
flush check it is a multiple of 8 not above CAP - MARGIN again. -/
def Obligations.ScratchNeverOverflows : Prop :=
  ∀ (b : Byte) (s : State), s.cfg.built = true → s.sb.words.length = s.cfg.cap → s.sb.len % 8 = 0 →
    s.sb.len ≤ s.cfg.cap - s.cfg.margin →
    (expandByte { s with bl := { s.bl with byte := b } }).sb.len = s.sb.len + 8 ∧
      s.sb.len + 8 ≤ s.cfg.batch ∧ s.cfg.batch ≤ s.cfg.cap ∧
      (blitByte b s).sb.len % 8 = 0 ∧ (blitByte b s).sb.len ≤ s.cfg.cap - s.cfg.margin ∧
      (blitByte b s).sb.words.length = s.cfg.cap

/-- O31. DRAWBITMAP with width*height not a multiple of 8 is refused before any event (R168 a, V6; log 12). -/
def Obligations.DrawbitmapPartialByteRefused : Prop :=
  ∀ (w h ox oy fg bg : Word) (s : State), s.busy = false → w.toNat * h.toNat % 8 ≠ 0 →
    exec (.drawbitmap w h ox oy fg bg) s = .refused .bitmapNotWholeBytes

/-- O32. DRAWBITMAP whose source runs out is stuck (R168 b, V7; log 9): after every byte the source had, inside its open bracket,
BUSY still 1, the events issued before standing (R219). -/
def Obligations.DrawbitmapSourceExhausted : Prop :=
  ∀ (w h ox oy fg bg : Word) (s : State), s.busy = false → w.toNat * h.toNat % 8 = 0 →
    s.source.length < w.toNat * h.toNat / 8 →
    let win := blitWindow s.cfg w h ox oy
    ∃ u evs, exec (.drawbitmap w h ox oy fg bg) s = .fault (.sourceExhausted u) ∧
      u.trace = s.trace ++ windowEvents s.cfg win.1 win.2.1 win.2.2.1 win.2.2.2 ++ [.txSetData] ++ evs ∧
      sourceCalls evs = s.source ∧ .txSetCmd ∉ evs ∧ u.source = [] ∧ u.busy = true ∧ u.ghost.dmOpen = true ∧
      .sourceExhausted ∈ u.violations

/-! ### Rotation -/

/-- O33. SETROT with a selector of 0 to 3 (R180, R181): the command and the control byte of the table, then width, height
and rotation of the table; nothing else changes but the latch, the disarmed window and the fault mark. That the latch
keeps the selector afterwards is the model's choice (log 21), and so are the CW values the disarmed window keeps
(log 28). -/
def Obligations.SetrotResult : Prop :=
  ∀ (r : Byte) (s : State), s.busy = false → r.toNat ≤ 3 →
    ∃ t ctl, exec (.setrot r) s = .next t ∧ t.trace = s.trace ++ [.txCmd s.cfg.cmdMemAccessCtrl, .txData ctl] ∧
      t.ds.rot.toNat = r.toNat ∧ t.ds.valid = true ∧
      (r = 0 → ctl = 0x40 ∧ t.ds.width = s.cfg.nativeW ∧ t.ds.height = s.cfg.nativeH) ∧
      (r = 1 → ctl = 0x20 ∧ t.ds.width = s.cfg.nativeH ∧ t.ds.height = s.cfg.nativeW) ∧
      (r = 2 → ctl = 0x80 ∧ t.ds.width = s.cfg.nativeW ∧ t.ds.height = s.cfg.nativeH) ∧
      (r = 3 → ctl = 0xE0 ∧ t.ds.width = s.cfg.nativeH ∧ t.ds.height = s.cfg.nativeW) ∧
      t = { s with
        ds := t.ds, revTrace := t.revTrace, lat := { s.lat with r := r },
        ghost := { s.ghost with armed := false }, violations := t.violations }

/-- O34. SETROT with a selector of 4 to 255 (R183; log 18): no event, DisplayState unchanged, V8 recorded, and V13 where a
bracket is open; no other mark, and nothing else changes but SETROT's latch, which takes the selector by the model's
choice (logs 18 and 21). -/
def Obligations.SetrotOutOfRange : Prop :=
  ∀ (r : Byte) (s : State), s.busy = false → 3 < r.toNat →
    ∃ t, exec (.setrot r) s = .next t ∧ t.trace = s.trace ∧ t.ds = s.ds ∧
      (∀ v, v ∈ t.violations ↔ v ∈ s.violations ∨ v = .rotationSelector ∨
        (v = .commandInBracket ∧ s.ghost.dmOpen = true)) ∧
      t = { s with lat := { s.lat with r := r }, violations := t.violations }

/-- O35. SETROT has no history (R184): whatever two machines of the same native size held before, it leaves them the same
DisplayState; a second SETROT of the same selector leaves DisplayState as it is and issues its two events again. -/
def Obligations.SetrotHasNoHistory : Prop :=
  ∀ (r : Byte) (s s' : State), s.busy = false → s'.busy = false → s.cfg.nativeW = s'.cfg.nativeW →
    s.cfg.nativeH = s'.cfg.nativeH → r.toNat ≤ 3 →
    ∃ t t' t2 evs, exec (.setrot r) s = .next t ∧ exec (.setrot r) s' = .next t' ∧ exec (.setrot r) t = .next t2 ∧
      t.ds = t'.ds ∧ t2.ds = t.ds ∧ evs.length = 2 ∧ t.trace = s.trace ++ evs ∧ t2.trace = t.trace ++ evs

/-! ### The sequencer -/

/-- O36. END (R112): no event, TP not advanced, only the command byte read; a host's RUNSEQ is over and BUSY falls (R36;
log 8). That SQ_CMD keeps the 0x00 afterwards is the model's choice (log 21); nothing else changes. Which byte stands at TP
is that of the table's own byte list (logs 6 and 7). -/
def Obligations.EndStops : Prop :=
  (∀ s : State, s.seq.phase = .runseq →
    exec .endRec s = .next { s with busy := false, seq := { s.seq with phase := .idle, cmd := 0x00 } }) ∧
  (∀ s : State, tableByte s 0 = some 0x00 → recordBytes s = [0x00])

/-- O37. END inside INIT (R112, R186): no event, TP not advanced, BUSY stays, and INIT goes on with its next part
(log 8). That SQ_CMD keeps the 0x00 afterwards is the model's choice (log 21). -/
def Obligations.EndInsideInit : Prop :=
  (∀ s : State, s.seq.phase = .initReset →
    exec .endRec s = .next { s with seq := { s.seq with phase := .initLoadWake, cmd := 0x00 } }) ∧
  (∀ s : State, s.seq.phase = .initWake →
    exec .endRec s = .next { s with seq := { s.seq with phase := .initRotate, cmd := 0x00 } })

/-- O38. DELAY (R113): exactly one `ClkDelay(ms)`, also for 0, then TP <- TP + 2, the index in the byte list with it
(log 7); nothing else changes but SQ_CMD and SQ_ARG. That these keep 0x55 and `ms` afterwards is the model's choice
(log 21). -/
def Obligations.DelayResult : Prop :=
  ∀ (ms : Byte) (s : State),
    ∃ t, exec (.delay ms) s = .next t ∧ t.trace = s.trace ++ [.clkDelay ms] ∧
      t = { s with
        revTrace := t.revTrace,
        seq := { s.seq with tp := (s.seq.tp + 2) % 2 ^ s.cfg.tblAddrBits, pos := s.seq.pos + 2, cmd := 0x55, arg := ms } }

/-- O39. CMD (R114): `TxCmd(c)`, then the parameters in table order, then TP <- TP + 2 + len, the index in the byte list
with it (log 7); nothing else changes but the sequencer's working registers, the disarmed window and the fault mark. That
SQ_CMD, SQ_ARG and SQ_IDX keep their last values afterwards is the model's choice (log 21), and so are the CW values the
disarmed window keeps (log 28). -/
def Obligations.CmdResult : Prop :=
  ∀ (c : Byte) (params : List Byte) (s : State),
    ∃ t, exec (.cmd c params) s = .next t ∧ t.trace = s.trace ++ .txCmd c :: params.map .txData ∧
      t = { s with
        revTrace := t.revTrace, ghost := { s.ghost with armed := false }, violations := t.violations,
        seq :=
          { phase := s.seq.phase, tp := (s.seq.tp + (2 + params.length)) % 2 ^ s.cfg.tblAddrBits,
            pos := s.seq.pos + (2 + params.length), cmd := c,
            arg := BitVec.ofNat 8 params.length, idx := BitVec.ofNat 8 params.length } }

/-- O40. RUNSEQ on a well-formed table (R111, R115): accepted, it runs the table's records, one a step (log 8), to END:
the trace is the concatenation of the records' traces, TP is left at the terminator, BUSY is 0, DisplayState, SB, the
bracket and the source are untouched. -/
def Obligations.RunseqRunsTable : Prop :=
  ∀ (T : List Byte) (rs : List Instr) (stop base : Nat) (s : State), s.busy = false → s.cfg.built = true →
    TableAt s base T → parseTable T = some rs → tableStop T (T.length + 1) 0 = some stop →
    ∃ t0 t, exec (.runseq base) s = .next t0 ∧ t0.busy = true ∧ t0.seq.tp = base ∧
      runSteps (rs.length + 1) t0 = .next t ∧
      t.trace = s.trace ++ tableEvents rs ∧ t.seq.tp = base + stop ∧ t.busy = false ∧ t.seq.phase = .idle ∧
      t.ds = s.ds ∧ t.sb = s.sb ∧ t.bl = s.bl ∧ t.fc = s.fc ∧ t.tbl = s.tbl ∧ t.tables = s.tables ∧
      t.source = s.source ∧
      t.script = s.script ∧ t.ghost.dmOpen = s.ghost.dmOpen

/-- O41. RUNSEQ on a table that is not well-formed (R90, R116, V1): whatever bytes follow the table in TBL, it runs the
records before the one that is cut short, one a step (log 8), and then faults at the first read outside the table's byte
list (log 7), after the cut record's command and the parameters the list still holds (vectors Q7 to Q9); those events
stand (R219), and BUSY is still 1. -/
def Obligations.RunseqMalformedFaults : Prop :=
  ∀ (T : List Byte) (base : Nat) (s : State), s.busy = false → s.cfg.built = true → TableAt s base T →
    tableWellFormed T = false →
    let parsed := recordsBefore T.length T
    ∃ t0 t1 u, exec (.runseq base) s = .next t0 ∧ runSteps parsed.1.length t0 = .next t1 ∧
      t1.trace = s.trace ++ tableEvents parsed.1 ∧ recordBytes t1 = parsed.2 ∧
      step t1 = .fault (.tableOverrun u) ∧ u.trace = t1.trace ++ cutEvents parsed.2 ∧
      .tableOverrun ∈ u.violations ∧
      u = { t1 with revTrace := u.revTrace, seq := u.seq, ghost := u.ghost, violations := u.violations } ∧ u.busy = true

/-- O42. RUNSEQ and INIT are accepted (R36, R111, R186; log 8): BUSY is 1, TP is at the table's first byte, which for INIT
is index 0 of its byte list by the model's choice (log 6), no event is issued yet, and only the sequencer, RUNSEQ's latch
where it is a RUNSEQ, and the fault mark change. That INIT leaves RUNSEQ's latch as it was is the model's choice
(log 21). -/
def Obligations.SequencesStart : Prop :=
  (∀ (table : Nat) (s : State), s.busy = false → table < 2 ^ s.cfg.tblAddrBits →
    ∃ t, exec (.runseq table) s = .next t ∧
      t = { s with
        busy := true, seq := { s.seq with phase := .runseq, tp := table, pos := 0 },
        lat := { s.lat with table := table },
        violations := t.violations }) ∧
  (∀ s : State, s.busy = false →
    ∃ t, exec .init s = .next t ∧
      t = { s with busy := true, seq := { s.seq with phase := .initReset, tp := 0, pos := 0 }, violations := t.violations })

/-- O43. INIT (R42, R186): with both tables well-formed it runs the reset-off table, the wake-on table and the rotation,
in that order (steps: log 8; a list longer than TP can count: log 6), and leaves DS_VALID = 1, DS_ROT = INIT_ROTATION, the dimensions of the table, BUSY = 0. -/
def Obligations.InitCompletes : Prop :=
  ∀ (rs1 rs2 : List Instr) (s : State), s.busy = false → s.cfg.built = true → s.cfg.tablesOk = true →
    parseTable s.cfg.tableResetOff = some rs1 → parseTable s.cfg.tableWakeOn = some rs2 →
    ∃ t0 t, exec .init s = .next t0 ∧
      runSteps (rs1.length + rs2.length + 4) t0 = .next t ∧
      t.trace = s.trace ++ tableEvents rs1 ++ tableEvents rs2 ++
        [.txCmd s.cfg.cmdMemAccessCtrl, .txData (rotCtrl s.cfg.initRotation)] ∧
      t.ds.valid = true ∧ t.ds.rot = s.cfg.initRotation ∧ displayAgrees s.cfg t.ds ∧ t.busy = false ∧
      t.seq.phase = .idle ∧ t.sb = s.sb ∧ t.ghost.dmOpen = s.ghost.dmOpen ∧ t.ghost.armed = false ∧
      t.tbl = s.tbl ∧ t.tables = s.tables ∧ t.source = s.source ∧ t.script = s.script

/-! ### Reset and the whole machine -/

/-- O44. What reset leaves (R41): DS_VALID, BUSY, SB_LEN, DM_OPEN and CW_ARMED 0, nothing in progress. -/
def Obligations.ResetValues : Prop :=
  State.reset.ds.valid = false ∧ State.reset.busy = false ∧ State.reset.sb.len = 0 ∧
    State.reset.ghost.dmOpen = false ∧ State.reset.ghost.armed = false ∧ State.reset.seq.phase = .idle ∧
    State.reset.trace = [] ∧ State.reset.violations = []

/-- O45. The invariant of StepKeepsInvariant holds at reset. -/
def Obligations.InvariantAtReset : Prop := State.reset.Inv

/-- O46. Every step keeps the invariant, from every state that meets it: TBL canonical, SB of CAP words and empty, BUSY
exactly while a request is in progress, TP inside the address space and in step with the index in the table's byte list
(logs 6 and 7), DisplayState agreeing with its rotation (R25, R27, R29, R36, R76). -/
def Obligations.StepKeepsInvariant : Prop :=
  ∀ s t : State, s.Inv → step s = .next t → t.Inv

/-- O47. The ghost bracket bit is what the trace says (R37): every step keeps DM_OPEN equal to "the latest mode switch is
TxSetData". -/
def Obligations.StepKeepsBracketGhost : Prop :=
  ∀ s t : State, s.ghost.dmOpen = openBracket s.revTrace → step s = .next t →
    t.ghost.dmOpen = openBracket t.revTrace

/-- O48. DisplayState is mutated by the rotation alone (R24): a step changes it only when it runs SETROT with a selector
of 0 to 3, or the rotation that ends INIT. -/
def Obligations.OnlyRotationWritesDisplayState : Prop :=
  ∀ s t : State, step s = .next t →
    t.ds = s.ds ∨ s.seq.phase = .initRotate ∨
      (s.seq.phase = .idle ∧
        ∃ r rest, decodeRequest s.cfg.tblAddrBits s.script = .ok (.setrot r, rest) ∧ r.toNat ≤ 3)

/-- O49. Nothing clears DS_VALID (R23). -/
def Obligations.DisplayStateStaysValid : Prop :=
  ∀ s t : State, s.ds.valid = true → step s = .next t → t.ds.valid = true

/-- O50. No step writes a byte of TBL (R51), moves a table's byte list (log 7) or changes a parameter (R40). -/
def Obligations.TablesAndParametersFixed : Prop :=
  ∀ s t : State, step s = .next t → t.cfg = s.cfg ∧ t.tables = s.tables ∧
    ∀ a, Memory.read t.tbl a = Memory.read s.tbl a

/-- O51. The trace is only appended to (R219) and no recorded violation is ever cleared (R204). -/
def Obligations.TraceAndMarksOnlyGrow : Prop :=
  ∀ s t : State, step s = .next t →
    (∃ evs, t.trace = s.trace ++ evs) ∧ ∀ v, v ∈ s.violations → v ∈ t.violations

/-- O52. Mode switches come only from BEGINDATA, ENDDATA, DRAWBITMAP, and FILLSCREEN when FILLSCREEN_BRACKET is true
(R59): a step that runs none of these issues no `TxSetData` and no `TxSetCmd`. -/
def Obligations.ModeSwitchesOnlyFromBrackets : Prop :=
  ∀ s t : State, step s = .next t →
    (∀ i s', fetch s = .run i s' →
      i ≠ .begindata ∧ i ≠ .enddata ∧ (∀ w h ox oy fg bg, i ≠ .drawbitmap w h ox oy fg bg) ∧
      (∀ color, i = .fillscreen color → s.cfg.fillscreenBracket = false)) →
    ∃ evs, t.trace = s.trace ++ evs ∧ .txSetData ∉ evs ∧ .txSetCmd ∉ evs

/-- O53. Every operation but FILLSCREEN has the same trace whatever DisplayState holds (R132, R169 d, R234). -/
def Obligations.OnlyFillscreenReadsDisplayState : Prop :=
  ∀ (i : Instr) (s t : State) (ds : DisplayState), (∀ color, i ≠ .fillscreen color) → exec i s = .next t →
    ∃ u, exec i { s with ds := ds } = .next u ∧ u.trace = t.trace ∧ u.source = t.source

/-- O54. When BUSY falls (R36, R80; log 8): where exec of a request answers a next state, RUNSEQ and INIT leave BUSY = 1
with a table run in progress, and every other request has completed, BUSY = 0 and the sequencer untouched. -/
def Obligations.BusyAfterRequest : Prop :=
  ∀ (i : Instr) (s t : State), i.isRequest = true → exec i s = .next t →
    ((i = .init ∨ ∃ table, i = .runseq table) → t.busy = true ∧ t.seq.phase ≠ .idle) ∧
    (i ≠ .init → (∀ table, i ≠ .runseq table) → t.busy = false ∧ t.seq = s.seq)

/-- O55. The invariants of DisplayState (R25): once DS_VALID = 1, width and height are positive and are the native ones
for rotations 0 and 2, swapped for 1 and 3; every step keeps this, from every state that meets it. -/
def Obligations.StepKeepsDisplayInvariant : Prop :=
  ∀ s t : State,
    (s.ds.valid = true → s.ds.width ≠ 0 ∧ s.ds.height ≠ 0 ∧ displayAgrees s.cfg s.ds) → step s = .next t →
    (t.ds.valid = true → t.ds.width ≠ 0 ∧ t.ds.height ≠ 0 ∧ displayAgrees t.cfg t.ds)

/-! ### The marks of the operations that send commands, and the end of a run -/

/-- O56. V13 (R141, R203, R243), for every instruction that answers a next state: it is recorded exactly by RUNSEQ, SETWIN,
SETROT, FILLSCREEN, DRAWBITMAP and INIT with a data bracket open, and a mark recorded before stays. -/
def Obligations.CommandInBracketMarked : Prop :=
  ∀ (i : Instr) (s t : State), exec i s = .next t →
    (.commandInBracket ∈ t.violations ↔ .commandInBracket ∈ s.violations ∨
      (s.ghost.dmOpen = true ∧
        (i = .init ∨ (∃ table, i = .runseq table) ∨ (∃ x1 y1 x2 y2, i = .setwin x1 y1 x2 y2) ∨
          (∃ color, i = .fillscreen color) ∨ (∃ w h ox oy fg bg, i = .drawbitmap w h ox oy fg bg) ∨
          ∃ r, i = .setrot r)))

/-- O57. The marks of DRAWBITMAP, all of them: V2 exactly when the destination rectangle has a pixel outside the display
(R168 c) or the window it programs breaks R133 (a) (log 15); V3 exactly when the window armed before was not filled
(R133 c) or its pixels overrun the window it programs (log 16); V13 exactly when a bracket is open. -/
def Obligations.DrawbitmapViolations : Prop :=
  ∀ (w h ox oy fg bg : Word) (s : State), s.busy = false → s.cfg.built = true → s.sb.words.length = s.cfg.cap →
    w.toNat * h.toNat % 8 = 0 → w.toNat * h.toNat / 8 ≤ s.source.length →
    let win := blitWindow s.cfg w h ox oy
    ∃ t, exec (.drawbitmap w h ox oy fg bg) s = .next t ∧
      ∀ v, v ∈ t.violations ↔ v ∈ s.violations ∨
        (v = .windowOutside ∧
          ¬ ((w = 0 ∨ h = 0 ∨ (s.ds.valid = true ∧ ox.toNat + w.toNat ≤ s.ds.width.toNat ∧
              oy.toNat + h.toNat ≤ s.ds.height.toNat)) ∧
            s.ds.valid = true ∧ win.1.toNat ≤ win.2.2.1.toNat ∧ win.2.2.1.toNat < s.ds.width.toNat ∧
            win.2.1.toNat ≤ win.2.2.2.toNat ∧ win.2.2.2.toNat < s.ds.height.toNat)) ∨
        (v = .pixelCount ∧
          ((s.ghost.armed = true ∧ s.ghost.count ≠ windowArea s.ghost) ∨
            (0 < w.toNat * h.toNat ∧
              (win.2.2.1.toNat + 1 - win.1.toNat) * (win.2.2.2.toNat + 1 - win.2.1.toNat) < w.toNat * h.toNat))) ∨
        (v = .commandInBracket ∧ s.ghost.dmOpen = true)

/-- O58. The marks of the other operations that send commands, all of them: V3 is recorded by their first command exactly
when the window armed before was not filled (R133 c, R241; log 16), for a record CMD, a SETROT of 0 to 3, the rotation that
ends INIT, and FILLSCREEN; V13 by SETROT and FILLSCREEN exactly when a bracket is open; V2 by FILLSCREEN exactly
where a dimension is 0, which R25 excludes and where that no window is inside the display is the model's reading
(log 15). -/
def Obligations.CommandsSettleWindow : Prop :=
  (∀ (c : Byte) (params : List Byte) (s : State), ∃ t, exec (.cmd c params) s = .next t ∧
    ∀ v, v ∈ t.violations ↔ v ∈ s.violations ∨ (v = .pixelCount ∧ ¬ windowSettled s.ghost)) ∧
  (∀ (r : Byte) (s : State), s.busy = false → r.toNat ≤ 3 → ∃ t, exec (.setrot r) s = .next t ∧
    ∀ v, v ∈ t.violations ↔ v ∈ s.violations ∨ (v = .pixelCount ∧ ¬ windowSettled s.ghost) ∨
      (v = .commandInBracket ∧ s.ghost.dmOpen = true)) ∧
  (∀ s : State, s.cfg.built = true → s.seq.phase = .initRotate → ∃ t, step s = .next t ∧
    ∀ v, v ∈ t.violations ↔ v ∈ s.violations ∨ (v = .pixelCount ∧ ¬ windowSettled s.ghost)) ∧
  (∀ (color : Word) (s : State), s.busy = false → s.ds.valid = true → ∃ t, exec (.fillscreen color) s = .next t ∧
    ∀ v, v ∈ t.violations ↔ v ∈ s.violations ∨ (v = .pixelCount ∧ ¬ windowSettled s.ghost) ∨
      (v = .commandInBracket ∧ s.ghost.dmOpen = true) ∨
      (v = .windowOutside ∧ (s.ds.width = 0 ∨ s.ds.height = 0)))

/-- O59. The end of a run (R254; log 10): with nothing in progress and no request left, the end leaves no violation
recorded exactly when no bracket is open, every armed window is filled exactly (vector X13) and none was recorded before;
and then it changes nothing. -/
def Obligations.AtRestIsTheEnd : Prop :=
  ∀ s : State, s.cfg.built = true → s.seq.phase = .idle → s.busy = false → s.sb.len = 0 → s.script = [] →
    (s.AtRest ↔ ∃ t, step s = .next t ∧ t.violations = []) ∧ (s.AtRest → step s = .next s)
end

