-- ==== Sys2Proof/Laws/State.lean ====
section
/-! SUPPORT. What each named update of State leaves unchanged and what it writes: one lemma per field per update. -/

namespace Sys2Proof.Machine


/-- Two states with the same fields are the same state. -/
theorem State.eq_of_fields {s t : State} (hcfg : s.cfg = t.cfg) (hds : s.ds = t.ds) (hbusy : s.busy = t.busy) (hseq : s.seq = t.seq)
    (hsb : s.sb = t.sb) (hbl : s.bl = t.bl) (hfc : s.fc = t.fc) (hlat : s.lat = t.lat)
    (hghost : s.ghost = t.ghost) (htbl : s.tbl = t.tbl) (htables : s.tables = t.tables) (hsource : s.source = t.source)
    (hscript : s.script = t.script) (hrevTrace : s.revTrace = t.revTrace) (hviolations : s.violations = t.violations) : s = t := by
  cases s; cases t; simp_all

variable (s : State)

@[simp] theorem mark_cfg (v : Violation) : (mark v s).cfg = s.cfg := by unfold mark; split <;> rfl
@[simp] theorem mark_ds (v : Violation) : (mark v s).ds = s.ds := by unfold mark; split <;> rfl
@[simp] theorem mark_busy (v : Violation) : (mark v s).busy = s.busy := by unfold mark; split <;> rfl
@[simp] theorem mark_seq (v : Violation) : (mark v s).seq = s.seq := by unfold mark; split <;> rfl
@[simp] theorem mark_sb (v : Violation) : (mark v s).sb = s.sb := by unfold mark; split <;> rfl
@[simp] theorem mark_bl (v : Violation) : (mark v s).bl = s.bl := by unfold mark; split <;> rfl
@[simp] theorem mark_fc (v : Violation) : (mark v s).fc = s.fc := by unfold mark; split <;> rfl
@[simp] theorem mark_lat (v : Violation) : (mark v s).lat = s.lat := by unfold mark; split <;> rfl
@[simp] theorem mark_ghost (v : Violation) : (mark v s).ghost = s.ghost := by unfold mark; split <;> rfl
@[simp] theorem mark_tbl (v : Violation) : (mark v s).tbl = s.tbl := by unfold mark; split <;> rfl
@[simp] theorem mark_tables (v : Violation) : (mark v s).tables = s.tables := by unfold mark; split <;> rfl
@[simp] theorem mark_source (v : Violation) : (mark v s).source = s.source := by unfold mark; split <;> rfl
@[simp] theorem mark_script (v : Violation) : (mark v s).script = s.script := by unfold mark; split <;> rfl
@[simp] theorem mark_revTrace (v : Violation) : (mark v s).revTrace = s.revTrace := by unfold mark; split <;> rfl
@[simp] theorem mark_trace (v : Violation) : (mark v s).trace = s.trace := by simp [State.trace]

@[simp] theorem markIf_cfg (c : Bool) (v : Violation) : (markIf c v s).cfg = s.cfg := by unfold markIf; split <;> simp
@[simp] theorem markIf_ds (c : Bool) (v : Violation) : (markIf c v s).ds = s.ds := by unfold markIf; split <;> simp
@[simp] theorem markIf_busy (c : Bool) (v : Violation) : (markIf c v s).busy = s.busy := by unfold markIf; split <;> simp
@[simp] theorem markIf_seq (c : Bool) (v : Violation) : (markIf c v s).seq = s.seq := by unfold markIf; split <;> simp
@[simp] theorem markIf_sb (c : Bool) (v : Violation) : (markIf c v s).sb = s.sb := by unfold markIf; split <;> simp
@[simp] theorem markIf_bl (c : Bool) (v : Violation) : (markIf c v s).bl = s.bl := by unfold markIf; split <;> simp
@[simp] theorem markIf_fc (c : Bool) (v : Violation) : (markIf c v s).fc = s.fc := by unfold markIf; split <;> simp
@[simp] theorem markIf_lat (c : Bool) (v : Violation) : (markIf c v s).lat = s.lat := by unfold markIf; split <;> simp
@[simp] theorem markIf_ghost (c : Bool) (v : Violation) : (markIf c v s).ghost = s.ghost := by unfold markIf; split <;> simp
@[simp] theorem markIf_tbl (c : Bool) (v : Violation) : (markIf c v s).tbl = s.tbl := by unfold markIf; split <;> simp
@[simp] theorem markIf_tables (c : Bool) (v : Violation) : (markIf c v s).tables = s.tables := by unfold markIf; split <;> simp
@[simp] theorem markIf_source (c : Bool) (v : Violation) : (markIf c v s).source = s.source := by unfold markIf; split <;> simp
@[simp] theorem markIf_script (c : Bool) (v : Violation) : (markIf c v s).script = s.script := by unfold markIf; split <;> simp
@[simp] theorem markIf_revTrace (c : Bool) (v : Violation) : (markIf c v s).revTrace = s.revTrace := by unfold markIf; split <;> simp
@[simp] theorem markIf_trace (c : Bool) (v : Violation) : (markIf c v s).trace = s.trace := by simp [State.trace]

@[simp] theorem settleWindow_cfg : (settleWindow s).cfg = s.cfg := by simp [settleWindow]
@[simp] theorem settleWindow_ds : (settleWindow s).ds = s.ds := by simp [settleWindow]
@[simp] theorem settleWindow_busy : (settleWindow s).busy = s.busy := by simp [settleWindow]
@[simp] theorem settleWindow_seq : (settleWindow s).seq = s.seq := by simp [settleWindow]
@[simp] theorem settleWindow_sb : (settleWindow s).sb = s.sb := by simp [settleWindow]
@[simp] theorem settleWindow_bl : (settleWindow s).bl = s.bl := by simp [settleWindow]
@[simp] theorem settleWindow_fc : (settleWindow s).fc = s.fc := by simp [settleWindow]
@[simp] theorem settleWindow_lat : (settleWindow s).lat = s.lat := by simp [settleWindow]
@[simp] theorem settleWindow_ghost : (settleWindow s).ghost = s.ghost := by simp [settleWindow]
@[simp] theorem settleWindow_tbl : (settleWindow s).tbl = s.tbl := by simp [settleWindow]
@[simp] theorem settleWindow_tables : (settleWindow s).tables = s.tables := by simp [settleWindow]
@[simp] theorem settleWindow_source : (settleWindow s).source = s.source := by simp [settleWindow]
@[simp] theorem settleWindow_script : (settleWindow s).script = s.script := by simp [settleWindow]
@[simp] theorem settleWindow_revTrace : (settleWindow s).revTrace = s.revTrace := by simp [settleWindow]
@[simp] theorem settleWindow_trace : (settleWindow s).trace = s.trace := by simp [State.trace]

@[simp] theorem checkNoBracket_cfg : (checkNoBracket s).cfg = s.cfg := by simp [checkNoBracket]
@[simp] theorem checkNoBracket_ds : (checkNoBracket s).ds = s.ds := by simp [checkNoBracket]
@[simp] theorem checkNoBracket_busy : (checkNoBracket s).busy = s.busy := by simp [checkNoBracket]
@[simp] theorem checkNoBracket_seq : (checkNoBracket s).seq = s.seq := by simp [checkNoBracket]
@[simp] theorem checkNoBracket_sb : (checkNoBracket s).sb = s.sb := by simp [checkNoBracket]
@[simp] theorem checkNoBracket_bl : (checkNoBracket s).bl = s.bl := by simp [checkNoBracket]
@[simp] theorem checkNoBracket_fc : (checkNoBracket s).fc = s.fc := by simp [checkNoBracket]
@[simp] theorem checkNoBracket_lat : (checkNoBracket s).lat = s.lat := by simp [checkNoBracket]
@[simp] theorem checkNoBracket_ghost : (checkNoBracket s).ghost = s.ghost := by simp [checkNoBracket]
@[simp] theorem checkNoBracket_tbl : (checkNoBracket s).tbl = s.tbl := by simp [checkNoBracket]
@[simp] theorem checkNoBracket_tables : (checkNoBracket s).tables = s.tables := by simp [checkNoBracket]
@[simp] theorem checkNoBracket_source : (checkNoBracket s).source = s.source := by simp [checkNoBracket]
@[simp] theorem checkNoBracket_script : (checkNoBracket s).script = s.script := by simp [checkNoBracket]
@[simp] theorem checkNoBracket_revTrace : (checkNoBracket s).revTrace = s.revTrace := by simp [checkNoBracket]
@[simp] theorem checkNoBracket_trace : (checkNoBracket s).trace = s.trace := by simp [State.trace]

@[simp] theorem checkArmed_cfg : (checkArmed s).cfg = s.cfg := by simp [checkArmed]
@[simp] theorem checkArmed_ds : (checkArmed s).ds = s.ds := by simp [checkArmed]
@[simp] theorem checkArmed_busy : (checkArmed s).busy = s.busy := by simp [checkArmed]
@[simp] theorem checkArmed_seq : (checkArmed s).seq = s.seq := by simp [checkArmed]
@[simp] theorem checkArmed_sb : (checkArmed s).sb = s.sb := by simp [checkArmed]
@[simp] theorem checkArmed_bl : (checkArmed s).bl = s.bl := by simp [checkArmed]
@[simp] theorem checkArmed_fc : (checkArmed s).fc = s.fc := by simp [checkArmed]
@[simp] theorem checkArmed_lat : (checkArmed s).lat = s.lat := by simp [checkArmed]
@[simp] theorem checkArmed_ghost : (checkArmed s).ghost = s.ghost := by simp [checkArmed]
@[simp] theorem checkArmed_tbl : (checkArmed s).tbl = s.tbl := by simp [checkArmed]
@[simp] theorem checkArmed_tables : (checkArmed s).tables = s.tables := by simp [checkArmed]
@[simp] theorem checkArmed_source : (checkArmed s).source = s.source := by simp [checkArmed]
@[simp] theorem checkArmed_script : (checkArmed s).script = s.script := by simp [checkArmed]
@[simp] theorem checkArmed_revTrace : (checkArmed s).revTrace = s.revTrace := by simp [checkArmed]
@[simp] theorem checkArmed_trace : (checkArmed s).trace = s.trace := by simp [State.trace]

@[simp] theorem checkFill_cfg (n : Nat) : (checkFill n s).cfg = s.cfg := by simp [checkFill]
@[simp] theorem checkFill_ds (n : Nat) : (checkFill n s).ds = s.ds := by simp [checkFill]
@[simp] theorem checkFill_busy (n : Nat) : (checkFill n s).busy = s.busy := by simp [checkFill]
@[simp] theorem checkFill_seq (n : Nat) : (checkFill n s).seq = s.seq := by simp [checkFill]
@[simp] theorem checkFill_sb (n : Nat) : (checkFill n s).sb = s.sb := by simp [checkFill]
@[simp] theorem checkFill_bl (n : Nat) : (checkFill n s).bl = s.bl := by simp [checkFill]
@[simp] theorem checkFill_fc (n : Nat) : (checkFill n s).fc = s.fc := by simp [checkFill]
@[simp] theorem checkFill_lat (n : Nat) : (checkFill n s).lat = s.lat := by simp [checkFill]
@[simp] theorem checkFill_ghost (n : Nat) : (checkFill n s).ghost = s.ghost := by simp [checkFill]
@[simp] theorem checkFill_tbl (n : Nat) : (checkFill n s).tbl = s.tbl := by simp [checkFill]
@[simp] theorem checkFill_tables (n : Nat) : (checkFill n s).tables = s.tables := by simp [checkFill]
@[simp] theorem checkFill_source (n : Nat) : (checkFill n s).source = s.source := by simp [checkFill]
@[simp] theorem checkFill_script (n : Nat) : (checkFill n s).script = s.script := by simp [checkFill]
@[simp] theorem checkFill_revTrace (n : Nat) : (checkFill n s).revTrace = s.revTrace := by simp [checkFill]
@[simp] theorem checkFill_trace (n : Nat) : (checkFill n s).trace = s.trace := by simp [State.trace]

@[simp] theorem emit_cfg (e : Event) : (emit e s).cfg = s.cfg := rfl
@[simp] theorem emit_ds (e : Event) : (emit e s).ds = s.ds := rfl
@[simp] theorem emit_busy (e : Event) : (emit e s).busy = s.busy := rfl
@[simp] theorem emit_seq (e : Event) : (emit e s).seq = s.seq := rfl
@[simp] theorem emit_sb (e : Event) : (emit e s).sb = s.sb := rfl
@[simp] theorem emit_bl (e : Event) : (emit e s).bl = s.bl := rfl
@[simp] theorem emit_fc (e : Event) : (emit e s).fc = s.fc := rfl
@[simp] theorem emit_lat (e : Event) : (emit e s).lat = s.lat := rfl
@[simp] theorem emit_ghost (e : Event) : (emit e s).ghost = s.ghost := rfl
@[simp] theorem emit_tbl (e : Event) : (emit e s).tbl = s.tbl := rfl
@[simp] theorem emit_tables (e : Event) : (emit e s).tables = s.tables := rfl
@[simp] theorem emit_source (e : Event) : (emit e s).source = s.source := rfl
@[simp] theorem emit_script (e : Event) : (emit e s).script = s.script := rfl
@[simp] theorem emit_violations (e : Event) : (emit e s).violations = s.violations := rfl
@[simp] theorem emit_revTrace (e : Event) : (emit e s).revTrace = e :: s.revTrace := rfl

@[simp] theorem txCmd_cfg (b : Byte) : (txCmd b s).cfg = s.cfg := by simp [txCmd]
@[simp] theorem txCmd_ds (b : Byte) : (txCmd b s).ds = s.ds := by simp [txCmd]
@[simp] theorem txCmd_busy (b : Byte) : (txCmd b s).busy = s.busy := by simp [txCmd]
@[simp] theorem txCmd_seq (b : Byte) : (txCmd b s).seq = s.seq := by simp [txCmd]
@[simp] theorem txCmd_sb (b : Byte) : (txCmd b s).sb = s.sb := by simp [txCmd]
@[simp] theorem txCmd_bl (b : Byte) : (txCmd b s).bl = s.bl := by simp [txCmd]
@[simp] theorem txCmd_fc (b : Byte) : (txCmd b s).fc = s.fc := by simp [txCmd]
@[simp] theorem txCmd_lat (b : Byte) : (txCmd b s).lat = s.lat := by simp [txCmd]
@[simp] theorem txCmd_tbl (b : Byte) : (txCmd b s).tbl = s.tbl := by simp [txCmd]
@[simp] theorem txCmd_tables (b : Byte) : (txCmd b s).tables = s.tables := by simp [txCmd]
@[simp] theorem txCmd_source (b : Byte) : (txCmd b s).source = s.source := by simp [txCmd]
@[simp] theorem txCmd_script (b : Byte) : (txCmd b s).script = s.script := by simp [txCmd]
@[simp] theorem txCmd_revTrace (b : Byte) : (txCmd b s).revTrace = .txCmd b :: s.revTrace := by simp [txCmd]
@[simp] theorem txCmd_ghost (b : Byte) : (txCmd b s).ghost = { s.ghost with armed := false } := by simp [txCmd]
@[simp] theorem txCmd_violations (b : Byte) : (txCmd b s).violations = (settleWindow s).violations := by simp [txCmd]

@[simp] theorem txData_cfg (b : Byte) : (txData b s).cfg = s.cfg := rfl
@[simp] theorem txData_ds (b : Byte) : (txData b s).ds = s.ds := rfl
@[simp] theorem txData_busy (b : Byte) : (txData b s).busy = s.busy := rfl
@[simp] theorem txData_seq (b : Byte) : (txData b s).seq = s.seq := rfl
@[simp] theorem txData_sb (b : Byte) : (txData b s).sb = s.sb := rfl
@[simp] theorem txData_bl (b : Byte) : (txData b s).bl = s.bl := rfl
@[simp] theorem txData_fc (b : Byte) : (txData b s).fc = s.fc := rfl
@[simp] theorem txData_lat (b : Byte) : (txData b s).lat = s.lat := rfl
@[simp] theorem txData_ghost (b : Byte) : (txData b s).ghost = s.ghost := rfl
@[simp] theorem txData_tbl (b : Byte) : (txData b s).tbl = s.tbl := rfl
@[simp] theorem txData_tables (b : Byte) : (txData b s).tables = s.tables := rfl
@[simp] theorem txData_source (b : Byte) : (txData b s).source = s.source := rfl
@[simp] theorem txData_script (b : Byte) : (txData b s).script = s.script := rfl
@[simp] theorem txData_violations (b : Byte) : (txData b s).violations = s.violations := rfl
@[simp] theorem txData_revTrace (b : Byte) : (txData b s).revTrace = .txData b :: s.revTrace := rfl

@[simp] theorem txSetData_cfg : (txSetData s).cfg = s.cfg := rfl
@[simp] theorem txSetData_ds : (txSetData s).ds = s.ds := rfl
@[simp] theorem txSetData_busy : (txSetData s).busy = s.busy := rfl
@[simp] theorem txSetData_seq : (txSetData s).seq = s.seq := rfl
@[simp] theorem txSetData_sb : (txSetData s).sb = s.sb := rfl
@[simp] theorem txSetData_bl : (txSetData s).bl = s.bl := rfl
@[simp] theorem txSetData_fc : (txSetData s).fc = s.fc := rfl
@[simp] theorem txSetData_lat : (txSetData s).lat = s.lat := rfl
@[simp] theorem txSetData_tbl : (txSetData s).tbl = s.tbl := rfl
@[simp] theorem txSetData_tables : (txSetData s).tables = s.tables := rfl
@[simp] theorem txSetData_source : (txSetData s).source = s.source := rfl
@[simp] theorem txSetData_script : (txSetData s).script = s.script := rfl
@[simp] theorem txSetData_violations : (txSetData s).violations = s.violations := rfl
@[simp] theorem txSetData_revTrace : (txSetData s).revTrace = .txSetData :: s.revTrace := rfl
@[simp] theorem txSetData_ghost : (txSetData s).ghost = { s.ghost with dmOpen := true } := rfl

@[simp] theorem txSetCmd_cfg : (txSetCmd s).cfg = s.cfg := rfl
@[simp] theorem txSetCmd_ds : (txSetCmd s).ds = s.ds := rfl
@[simp] theorem txSetCmd_busy : (txSetCmd s).busy = s.busy := rfl
@[simp] theorem txSetCmd_seq : (txSetCmd s).seq = s.seq := rfl
@[simp] theorem txSetCmd_sb : (txSetCmd s).sb = s.sb := rfl
@[simp] theorem txSetCmd_bl : (txSetCmd s).bl = s.bl := rfl
@[simp] theorem txSetCmd_fc : (txSetCmd s).fc = s.fc := rfl
@[simp] theorem txSetCmd_lat : (txSetCmd s).lat = s.lat := rfl
@[simp] theorem txSetCmd_tbl : (txSetCmd s).tbl = s.tbl := rfl
@[simp] theorem txSetCmd_tables : (txSetCmd s).tables = s.tables := rfl
@[simp] theorem txSetCmd_source : (txSetCmd s).source = s.source := rfl
@[simp] theorem txSetCmd_script : (txSetCmd s).script = s.script := rfl
@[simp] theorem txSetCmd_violations : (txSetCmd s).violations = s.violations := rfl
@[simp] theorem txSetCmd_revTrace : (txSetCmd s).revTrace = .txSetCmd :: s.revTrace := rfl
@[simp] theorem txSetCmd_ghost : (txSetCmd s).ghost = { s.ghost with dmOpen := false } := rfl

@[simp] theorem clkDelay_cfg (ms : Byte) : (clkDelay ms s).cfg = s.cfg := rfl
@[simp] theorem clkDelay_ds (ms : Byte) : (clkDelay ms s).ds = s.ds := rfl
@[simp] theorem clkDelay_busy (ms : Byte) : (clkDelay ms s).busy = s.busy := rfl
@[simp] theorem clkDelay_seq (ms : Byte) : (clkDelay ms s).seq = s.seq := rfl
@[simp] theorem clkDelay_sb (ms : Byte) : (clkDelay ms s).sb = s.sb := rfl
@[simp] theorem clkDelay_bl (ms : Byte) : (clkDelay ms s).bl = s.bl := rfl
@[simp] theorem clkDelay_fc (ms : Byte) : (clkDelay ms s).fc = s.fc := rfl
@[simp] theorem clkDelay_lat (ms : Byte) : (clkDelay ms s).lat = s.lat := rfl
@[simp] theorem clkDelay_ghost (ms : Byte) : (clkDelay ms s).ghost = s.ghost := rfl
@[simp] theorem clkDelay_tbl (ms : Byte) : (clkDelay ms s).tbl = s.tbl := rfl
@[simp] theorem clkDelay_tables (ms : Byte) : (clkDelay ms s).tables = s.tables := rfl
@[simp] theorem clkDelay_source (ms : Byte) : (clkDelay ms s).source = s.source := rfl
@[simp] theorem clkDelay_script (ms : Byte) : (clkDelay ms s).script = s.script := rfl
@[simp] theorem clkDelay_violations (ms : Byte) : (clkDelay ms s).violations = s.violations := rfl
@[simp] theorem clkDelay_revTrace (ms : Byte) : (clkDelay ms s).revTrace = .clkDelay ms :: s.revTrace := rfl

@[simp] theorem countPixel_cfg : (countPixel s).cfg = s.cfg := by unfold countPixel; split <;> simp
@[simp] theorem countPixel_ds : (countPixel s).ds = s.ds := by unfold countPixel; split <;> simp
@[simp] theorem countPixel_busy : (countPixel s).busy = s.busy := by unfold countPixel; split <;> simp
@[simp] theorem countPixel_seq : (countPixel s).seq = s.seq := by unfold countPixel; split <;> simp
@[simp] theorem countPixel_sb : (countPixel s).sb = s.sb := by unfold countPixel; split <;> simp
@[simp] theorem countPixel_bl : (countPixel s).bl = s.bl := by unfold countPixel; split <;> simp
@[simp] theorem countPixel_fc : (countPixel s).fc = s.fc := by unfold countPixel; split <;> simp
@[simp] theorem countPixel_lat : (countPixel s).lat = s.lat := by unfold countPixel; split <;> simp
@[simp] theorem countPixel_tbl : (countPixel s).tbl = s.tbl := by unfold countPixel; split <;> simp
@[simp] theorem countPixel_tables : (countPixel s).tables = s.tables := by unfold countPixel; split <;> simp
@[simp] theorem countPixel_source : (countPixel s).source = s.source := by unfold countPixel; split <;> simp
@[simp] theorem countPixel_script : (countPixel s).script = s.script := by unfold countPixel; split <;> simp
@[simp] theorem countPixel_revTrace : (countPixel s).revTrace = s.revTrace := by unfold countPixel; split <;> simp
@[simp] theorem countPixel_trace : (countPixel s).trace = s.trace := by simp [State.trace]

@[simp] theorem sendWord_cfg (w : Word) : (sendWord w s).cfg = s.cfg := by simp [sendWord]
@[simp] theorem sendWord_ds (w : Word) : (sendWord w s).ds = s.ds := by simp [sendWord]
@[simp] theorem sendWord_busy (w : Word) : (sendWord w s).busy = s.busy := by simp [sendWord]
@[simp] theorem sendWord_seq (w : Word) : (sendWord w s).seq = s.seq := by simp [sendWord]
@[simp] theorem sendWord_sb (w : Word) : (sendWord w s).sb = s.sb := by simp [sendWord]
@[simp] theorem sendWord_bl (w : Word) : (sendWord w s).bl = s.bl := by simp [sendWord]
@[simp] theorem sendWord_fc (w : Word) : (sendWord w s).fc = s.fc := by simp [sendWord]
@[simp] theorem sendWord_lat (w : Word) : (sendWord w s).lat = s.lat := by simp [sendWord]
@[simp] theorem sendWord_tbl (w : Word) : (sendWord w s).tbl = s.tbl := by simp [sendWord]
@[simp] theorem sendWord_tables (w : Word) : (sendWord w s).tables = s.tables := by simp [sendWord]
@[simp] theorem sendWord_source (w : Word) : (sendWord w s).source = s.source := by simp [sendWord]
@[simp] theorem sendWord_script (w : Word) : (sendWord w s).script = s.script := by simp [sendWord]
@[simp] theorem sendWord_revTrace (w : Word) : (sendWord w s).revTrace = .txData (lo8 w) :: .txData (hi8 w) :: s.revTrace := by simp [sendWord]

@[simp] theorem pushWord_cfg (w : Word) : (pushWord w s).cfg = s.cfg := rfl
@[simp] theorem pushWord_ds (w : Word) : (pushWord w s).ds = s.ds := rfl
@[simp] theorem pushWord_busy (w : Word) : (pushWord w s).busy = s.busy := rfl
@[simp] theorem pushWord_seq (w : Word) : (pushWord w s).seq = s.seq := rfl
@[simp] theorem pushWord_bl (w : Word) : (pushWord w s).bl = s.bl := rfl
@[simp] theorem pushWord_fc (w : Word) : (pushWord w s).fc = s.fc := rfl
@[simp] theorem pushWord_lat (w : Word) : (pushWord w s).lat = s.lat := rfl
@[simp] theorem pushWord_ghost (w : Word) : (pushWord w s).ghost = s.ghost := rfl
@[simp] theorem pushWord_tbl (w : Word) : (pushWord w s).tbl = s.tbl := rfl
@[simp] theorem pushWord_tables (w : Word) : (pushWord w s).tables = s.tables := rfl
@[simp] theorem pushWord_source (w : Word) : (pushWord w s).source = s.source := rfl
@[simp] theorem pushWord_script (w : Word) : (pushWord w s).script = s.script := rfl
@[simp] theorem pushWord_revTrace (w : Word) : (pushWord w s).revTrace = s.revTrace := rfl
@[simp] theorem pushWord_violations (w : Word) : (pushWord w s).violations = s.violations := rfl
@[simp] theorem pushWord_trace (w : Word) : (pushWord w s).trace = s.trace := by simp [State.trace]
@[simp] theorem pushWord_sb (w : Word) : (pushWord w s).sb = { words := s.sb.words.set s.sb.len w, len := s.sb.len + 1 } := rfl

@[simp] theorem advanceTp_cfg (k : Nat) : (advanceTp k s).cfg = s.cfg := rfl
@[simp] theorem advanceTp_ds (k : Nat) : (advanceTp k s).ds = s.ds := rfl
@[simp] theorem advanceTp_busy (k : Nat) : (advanceTp k s).busy = s.busy := rfl
@[simp] theorem advanceTp_sb (k : Nat) : (advanceTp k s).sb = s.sb := rfl
@[simp] theorem advanceTp_bl (k : Nat) : (advanceTp k s).bl = s.bl := rfl
@[simp] theorem advanceTp_fc (k : Nat) : (advanceTp k s).fc = s.fc := rfl
@[simp] theorem advanceTp_lat (k : Nat) : (advanceTp k s).lat = s.lat := rfl
@[simp] theorem advanceTp_ghost (k : Nat) : (advanceTp k s).ghost = s.ghost := rfl
@[simp] theorem advanceTp_tbl (k : Nat) : (advanceTp k s).tbl = s.tbl := rfl
@[simp] theorem advanceTp_tables (k : Nat) : (advanceTp k s).tables = s.tables := rfl
@[simp] theorem advanceTp_source (k : Nat) : (advanceTp k s).source = s.source := rfl
@[simp] theorem advanceTp_script (k : Nat) : (advanceTp k s).script = s.script := rfl
@[simp] theorem advanceTp_revTrace (k : Nat) : (advanceTp k s).revTrace = s.revTrace := rfl
@[simp] theorem advanceTp_violations (k : Nat) : (advanceTp k s).violations = s.violations := rfl
@[simp] theorem advanceTp_trace (k : Nat) : (advanceTp k s).trace = s.trace := by simp [State.trace]
@[simp] theorem advanceTp_seq (k : Nat) : (advanceTp k s).seq = { s.seq with tp := tableAddr s.cfg s.seq.tp k, pos := s.seq.pos + k } := rfl

@[simp] theorem loadRecord_cfg (c a : Byte) : (loadRecord c a s).cfg = s.cfg := rfl
@[simp] theorem loadRecord_ds (c a : Byte) : (loadRecord c a s).ds = s.ds := rfl
@[simp] theorem loadRecord_busy (c a : Byte) : (loadRecord c a s).busy = s.busy := rfl
@[simp] theorem loadRecord_sb (c a : Byte) : (loadRecord c a s).sb = s.sb := rfl
@[simp] theorem loadRecord_bl (c a : Byte) : (loadRecord c a s).bl = s.bl := rfl
@[simp] theorem loadRecord_fc (c a : Byte) : (loadRecord c a s).fc = s.fc := rfl
@[simp] theorem loadRecord_lat (c a : Byte) : (loadRecord c a s).lat = s.lat := rfl
@[simp] theorem loadRecord_ghost (c a : Byte) : (loadRecord c a s).ghost = s.ghost := rfl
@[simp] theorem loadRecord_tbl (c a : Byte) : (loadRecord c a s).tbl = s.tbl := rfl
@[simp] theorem loadRecord_tables (c a : Byte) : (loadRecord c a s).tables = s.tables := rfl
@[simp] theorem loadRecord_source (c a : Byte) : (loadRecord c a s).source = s.source := rfl
@[simp] theorem loadRecord_script (c a : Byte) : (loadRecord c a s).script = s.script := rfl
@[simp] theorem loadRecord_revTrace (c a : Byte) : (loadRecord c a s).revTrace = s.revTrace := rfl
@[simp] theorem loadRecord_violations (c a : Byte) : (loadRecord c a s).violations = s.violations := rfl
@[simp] theorem loadRecord_trace (c a : Byte) : (loadRecord c a s).trace = s.trace := by simp [State.trace]
@[simp] theorem loadRecord_seq (c a : Byte) : (loadRecord c a s).seq = { s.seq with cmd := c, arg := a } := rfl

@[simp] theorem startTable_cfg (p : Phase) (table : Nat) : (startTable p table s).cfg = s.cfg := rfl
@[simp] theorem startTable_ds (p : Phase) (table : Nat) : (startTable p table s).ds = s.ds := rfl
@[simp] theorem startTable_busy (p : Phase) (table : Nat) : (startTable p table s).busy = s.busy := rfl
@[simp] theorem startTable_sb (p : Phase) (table : Nat) : (startTable p table s).sb = s.sb := rfl
@[simp] theorem startTable_bl (p : Phase) (table : Nat) : (startTable p table s).bl = s.bl := rfl
@[simp] theorem startTable_fc (p : Phase) (table : Nat) : (startTable p table s).fc = s.fc := rfl
@[simp] theorem startTable_lat (p : Phase) (table : Nat) : (startTable p table s).lat = s.lat := rfl
@[simp] theorem startTable_ghost (p : Phase) (table : Nat) : (startTable p table s).ghost = s.ghost := rfl
@[simp] theorem startTable_tbl (p : Phase) (table : Nat) : (startTable p table s).tbl = s.tbl := rfl
@[simp] theorem startTable_tables (p : Phase) (table : Nat) : (startTable p table s).tables = s.tables := rfl
@[simp] theorem startTable_source (p : Phase) (table : Nat) : (startTable p table s).source = s.source := rfl
@[simp] theorem startTable_script (p : Phase) (table : Nat) : (startTable p table s).script = s.script := rfl
@[simp] theorem startTable_revTrace (p : Phase) (table : Nat) : (startTable p table s).revTrace = s.revTrace := rfl
@[simp] theorem startTable_violations (p : Phase) (table : Nat) : (startTable p table s).violations = s.violations := rfl
@[simp] theorem startTable_trace (p : Phase) (table : Nat) : (startTable p table s).trace = s.trace := by simp [State.trace]
@[simp] theorem startTable_seq (p : Phase) (table : Nat) : (startTable p table s).seq = { s.seq with phase := p, tp := tableAddr s.cfg table 0, pos := 0 } := rfl

@[simp] theorem stopTable_cfg : (stopTable s).cfg = s.cfg := rfl
@[simp] theorem stopTable_ds : (stopTable s).ds = s.ds := rfl
@[simp] theorem stopTable_sb : (stopTable s).sb = s.sb := rfl
@[simp] theorem stopTable_bl : (stopTable s).bl = s.bl := rfl
@[simp] theorem stopTable_fc : (stopTable s).fc = s.fc := rfl
@[simp] theorem stopTable_lat : (stopTable s).lat = s.lat := rfl
@[simp] theorem stopTable_ghost : (stopTable s).ghost = s.ghost := rfl
@[simp] theorem stopTable_tbl : (stopTable s).tbl = s.tbl := rfl
@[simp] theorem stopTable_tables : (stopTable s).tables = s.tables := rfl
@[simp] theorem stopTable_source : (stopTable s).source = s.source := rfl
@[simp] theorem stopTable_script : (stopTable s).script = s.script := rfl
@[simp] theorem stopTable_revTrace : (stopTable s).revTrace = s.revTrace := rfl
@[simp] theorem stopTable_violations : (stopTable s).violations = s.violations := rfl
@[simp] theorem stopTable_trace : (stopTable s).trace = s.trace := by simp [State.trace]
@[simp] theorem stopTable_seq : (stopTable s).seq = { s.seq with phase := s.seq.phase.afterEnd } := rfl

@[simp] theorem setWindow_cfg (x1 y1 x2 y2 : Word) : (setWindow x1 y1 x2 y2 s).cfg = s.cfg := by simp [setWindow]
@[simp] theorem setWindow_ds (x1 y1 x2 y2 : Word) : (setWindow x1 y1 x2 y2 s).ds = s.ds := by simp [setWindow]
@[simp] theorem setWindow_busy (x1 y1 x2 y2 : Word) : (setWindow x1 y1 x2 y2 s).busy = s.busy := by simp [setWindow]
@[simp] theorem setWindow_seq (x1 y1 x2 y2 : Word) : (setWindow x1 y1 x2 y2 s).seq = s.seq := by simp [setWindow]
@[simp] theorem setWindow_sb (x1 y1 x2 y2 : Word) : (setWindow x1 y1 x2 y2 s).sb = s.sb := by simp [setWindow]
@[simp] theorem setWindow_bl (x1 y1 x2 y2 : Word) : (setWindow x1 y1 x2 y2 s).bl = s.bl := by simp [setWindow]
@[simp] theorem setWindow_fc (x1 y1 x2 y2 : Word) : (setWindow x1 y1 x2 y2 s).fc = s.fc := by simp [setWindow]
@[simp] theorem setWindow_tbl (x1 y1 x2 y2 : Word) : (setWindow x1 y1 x2 y2 s).tbl = s.tbl := by simp [setWindow]
@[simp] theorem setWindow_tables (x1 y1 x2 y2 : Word) : (setWindow x1 y1 x2 y2 s).tables = s.tables := by simp [setWindow]
@[simp] theorem setWindow_source (x1 y1 x2 y2 : Word) : (setWindow x1 y1 x2 y2 s).source = s.source := by simp [setWindow]
@[simp] theorem setWindow_script (x1 y1 x2 y2 : Word) : (setWindow x1 y1 x2 y2 s).script = s.script := by simp [setWindow]
@[simp] theorem setWindow_ghost (x1 y1 x2 y2 : Word) : (setWindow x1 y1 x2 y2 s).ghost = { s.ghost with x1 := x1, y1 := y1, x2 := x2, y2 := y2, armed := true, count := 0 } := by simp [setWindow]
@[simp] theorem setWindow_lat (x1 y1 x2 y2 : Word) : (setWindow x1 y1 x2 y2 s).lat = { s.lat with x1 := x1, y1 := y1, x2 := x2, y2 := y2 } := by simp [setWindow]

@[simp] theorem rotate_cfg (r : BitVec 2) : (rotate r s).cfg = s.cfg := by simp [rotate]
@[simp] theorem rotate_busy (r : BitVec 2) : (rotate r s).busy = s.busy := by simp [rotate]
@[simp] theorem rotate_seq (r : BitVec 2) : (rotate r s).seq = s.seq := by simp [rotate]
@[simp] theorem rotate_sb (r : BitVec 2) : (rotate r s).sb = s.sb := by simp [rotate]
@[simp] theorem rotate_bl (r : BitVec 2) : (rotate r s).bl = s.bl := by simp [rotate]
@[simp] theorem rotate_fc (r : BitVec 2) : (rotate r s).fc = s.fc := by simp [rotate]
@[simp] theorem rotate_lat (r : BitVec 2) : (rotate r s).lat = s.lat := by simp [rotate]
@[simp] theorem rotate_tbl (r : BitVec 2) : (rotate r s).tbl = s.tbl := by simp [rotate]
@[simp] theorem rotate_tables (r : BitVec 2) : (rotate r s).tables = s.tables := by simp [rotate]
@[simp] theorem rotate_source (r : BitVec 2) : (rotate r s).source = s.source := by simp [rotate]
@[simp] theorem rotate_script (r : BitVec 2) : (rotate r s).script = s.script := by simp [rotate]

@[simp] theorem initLoadWake_cfg : (initLoadWake s).cfg = s.cfg := by simp [initLoadWake]
@[simp] theorem initLoadWake_ds : (initLoadWake s).ds = s.ds := by simp [initLoadWake]
@[simp] theorem initLoadWake_busy : (initLoadWake s).busy = s.busy := by simp [initLoadWake]
@[simp] theorem initLoadWake_sb : (initLoadWake s).sb = s.sb := by simp [initLoadWake]
@[simp] theorem initLoadWake_bl : (initLoadWake s).bl = s.bl := by simp [initLoadWake]
@[simp] theorem initLoadWake_fc : (initLoadWake s).fc = s.fc := by simp [initLoadWake]
@[simp] theorem initLoadWake_lat : (initLoadWake s).lat = s.lat := by simp [initLoadWake]
@[simp] theorem initLoadWake_ghost : (initLoadWake s).ghost = s.ghost := by simp [initLoadWake]
@[simp] theorem initLoadWake_tbl : (initLoadWake s).tbl = s.tbl := by simp [initLoadWake]
@[simp] theorem initLoadWake_tables : (initLoadWake s).tables = s.tables := by simp [initLoadWake]
@[simp] theorem initLoadWake_source : (initLoadWake s).source = s.source := by simp [initLoadWake]
@[simp] theorem initLoadWake_script : (initLoadWake s).script = s.script := by simp [initLoadWake]
@[simp] theorem initLoadWake_revTrace : (initLoadWake s).revTrace = s.revTrace := by simp [initLoadWake]
@[simp] theorem initLoadWake_violations : (initLoadWake s).violations = s.violations := by simp [initLoadWake]
@[simp] theorem initLoadWake_trace : (initLoadWake s).trace = s.trace := by simp [State.trace]

@[simp] theorem initRotate_cfg : (initRotate s).cfg = s.cfg := by simp [initRotate]
@[simp] theorem initRotate_sb : (initRotate s).sb = s.sb := by simp [initRotate]
@[simp] theorem initRotate_bl : (initRotate s).bl = s.bl := by simp [initRotate]
@[simp] theorem initRotate_fc : (initRotate s).fc = s.fc := by simp [initRotate]
@[simp] theorem initRotate_tbl : (initRotate s).tbl = s.tbl := by simp [initRotate]
@[simp] theorem initRotate_tables : (initRotate s).tables = s.tables := by simp [initRotate]
@[simp] theorem initRotate_source : (initRotate s).source = s.source := by simp [initRotate]
@[simp] theorem initRotate_script : (initRotate s).script = s.script := by simp [initRotate]

end Sys2Proof.Machine
end

