-- ==== Sys2Proof/Laws/Ops.lean ====
section
/-! SUPPORT. What each shared operation does, said once: the fault mark, the pixel stream, the table parameters, the window, the scratch buffer and DRAWBITMAP's loop. -/

namespace Sys2Proof.Machine

/-! ### The constants of the configuration (R9) -/

theorem endMark_eq : endMark = 0x00 := rfl

theorem delayMark_eq : delayMark = 0x55 := rfl

@[simp] theorem pixelsPerByte_eq : pixelsPerByte = 8 := rfl

/-- ROT_CTRL, entry by entry (R181). -/
theorem rotCtrl_eq : rotCtrl 0 = 0x40 ∧ rotCtrl 1 = 0x20 ∧ rotCtrl 2 = 0x80 ∧ rotCtrl 3 = 0xE0 := ⟨rfl, rfl, rfl, rfl⟩

theorem batch_eq (cfg : Config) : cfg.batch = 8 * ((cfg.cap - cfg.margin) / 8 + 1) := rfl

@[simp] theorem byteColors_length (fg bg : Word) (b : Byte) : (byteColors fg bg b).length = 8 := rfl

/-! ### The fault mark -/

@[simp] theorem mem_mark (v w : Violation) (s : State) :
    w ∈ (mark v s).violations ↔ w = v ∨ w ∈ s.violations := by
  unfold mark
  split
  · constructor
    · exact Or.inr
    · rintro (rfl | h)
      · assumption
      · exact h
  · simp [or_comm]

@[simp] theorem mem_markIf (c : Bool) (v w : Violation) (s : State) :
    w ∈ (markIf c v s).violations ↔ (c = true ∧ w = v) ∨ w ∈ s.violations := by
  unfold markIf
  split <;> simp_all

@[simp] theorem mem_settleWindow (v : Violation) (s : State) :
    v ∈ (settleWindow s).violations ↔
      (v = .pixelCount ∧ s.ghost.armed = true ∧ s.ghost.count ≠ windowArea s.ghost) ∨ v ∈ s.violations := by
  simp [settleWindow, and_comm]

@[simp] theorem mem_checkNoBracket (v : Violation) (s : State) :
    v ∈ (checkNoBracket s).violations ↔ (v = .commandInBracket ∧ s.ghost.dmOpen = true) ∨ v ∈ s.violations := by
  simp [checkNoBracket, and_comm]

@[simp] theorem mem_checkArmed (v : Violation) (s : State) :
    v ∈ (checkArmed s).violations ↔ (v = .noWindow ∧ s.ghost.armed = false) ∨ v ∈ s.violations := by
  simp [checkArmed, and_comm]

@[simp] theorem mem_checkFill (v : Violation) (n : Nat) (s : State) :
    v ∈ (checkFill n s).violations ↔
      (v = .fillCount ∧ s.ghost.armed = true ∧ n ≠ windowLeft s.ghost) ∨ v ∈ s.violations := by
  simp [checkFill, and_comm]

theorem markIf_false (v : Violation) (s : State) : markIf false v s = s := rfl

theorem mark_nodup {v : Violation} {s : State} (h : s.violations.Nodup) : (mark v s).violations.Nodup := by
  unfold mark
  split
  · exact h
  · rename_i hv
    simpa [List.nodup_append] using ⟨h, fun a ha => fun e => hv (e ▸ ha)⟩

theorem markIf_nodup {c : Bool} {v : Violation} {s : State} (h : s.violations.Nodup) :
    (markIf c v s).violations.Nodup := by
  unfold markIf
  split
  · exact mark_nodup h
  · exact h

/-- The mark depends on nothing but the violations recorded. -/
theorem mark_violations_congr {v : Violation} {s t : State} (h : s.violations = t.violations) :
    (mark v s).violations = (mark v t).violations := by
  unfold mark
  rw [h]
  split <;> simp [h]

theorem markIf_violations_congr {c : Bool} {v : Violation} {s t : State} (h : s.violations = t.violations) :
    (markIf c v s).violations = (markIf c v t).violations := by
  unfold markIf
  split
  · exact mark_violations_congr h
  · exact h

/-! ### Words on the bus -/

theorem countPixel_ghost (s : State) :
    (countPixel s).ghost = if s.ghost.armed then { s.ghost with count := s.ghost.count + 1 } else s.ghost := by
  unfold countPixel
  by_cases h : s.ghost.armed = true <;> simp [h]

theorem countPixel_violations (s : State) :
    (countPixel s).violations =
      (markIf (s.ghost.armed && decide (windowArea s.ghost < s.ghost.count + 1)) .pixelCount s).violations := by
  unfold countPixel
  by_cases h : s.ghost.armed = true
  · simp only [h, if_true, Bool.true_and]
    exact markIf_violations_congr rfl
  · simp [h, markIf]

theorem sendWord_ghost (w : Word) (s : State) :
    (sendWord w s).ghost = if s.ghost.armed then { s.ghost with count := s.ghost.count + 1 } else s.ghost := by
  rw [sendWord, countPixel_ghost]
  rfl

theorem sendWord_violations (w : Word) (s : State) :
    (sendWord w s).violations =
      (markIf (s.ghost.armed && decide (windowArea s.ghost < s.ghost.count + 1)) .pixelCount s).violations := by
  rw [sendWord, countPixel_violations]
  exact markIf_violations_congr rfl

theorem mark_of_mem {v : Violation} {s : State} (h : v ∈ s.violations) : mark v s = s := if_pos h

theorem mark_mark (v : Violation) (s : State) : mark v (mark v s) = mark v s := mark_of_mem (by simp)

/-- The ghost window after `n` more pixels (R38). -/
def Ghost.pixels (n : Nat) (g : Ghost) : Ghost := if g.armed then { g with count := g.count + n } else g

@[simp] theorem pixels_zero (g : Ghost) : Ghost.pixels 0 g = g := by
  unfold Ghost.pixels; split <;> rfl

@[simp] theorem pixels_armed (n : Nat) (g : Ghost) : (Ghost.pixels n g).armed = g.armed := by
  unfold Ghost.pixels; split <;> rfl

@[simp] theorem pixels_dmOpen (n : Nat) (g : Ghost) : (Ghost.pixels n g).dmOpen = g.dmOpen := by
  unfold Ghost.pixels; split <;> rfl

@[simp] theorem pixels_area (n : Nat) (g : Ghost) : windowArea (Ghost.pixels n g) = windowArea g := by
  unfold Ghost.pixels windowArea; split <;> rfl

theorem pixels_pixels (m n : Nat) (g : Ghost) : Ghost.pixels m (Ghost.pixels n g) = Ghost.pixels (n + m) g := by
  unfold Ghost.pixels
  by_cases h : g.armed = true <;> simp [h, Nat.add_assoc]

/-- Whether `n` more pixels overrun the armed window (V3, R143). -/
def Ghost.overrunBy (n : Nat) (g : Ghost) : Bool :=
  g.armed && decide (0 < n) && decide (windowArea g < g.count + n)

/-- What `n` more pixels leave in the fault mark. -/
def pixelMarks (n : Nat) (s : State) : List Violation := (markIf (s.ghost.overrunBy n) .pixelCount s).violations

@[simp] theorem mem_pixelMarks (v : Violation) (n : Nat) (s : State) :
    v ∈ pixelMarks n s ↔ (v = .pixelCount ∧ s.ghost.overrunBy n = true) ∨ v ∈ s.violations := by
  simp [pixelMarks, and_comm]

theorem pixelMarks_zero (s : State) : pixelMarks 0 s = s.violations := by
  simp [pixelMarks, Ghost.overrunBy, markIf]

theorem pixelMarks_congr {s t : State} (n : Nat) (hg : s.ghost = t.ghost) (hv : s.violations = t.violations) :
    pixelMarks n s = pixelMarks n t := by
  unfold pixelMarks
  rw [hg]
  exact markIf_violations_congr hv

/-- `m` words more, then `n` words more, mark what `m + n` words mark. -/
theorem pixelMarks_add {s t : State} (m n : Nat) (hg : t.ghost = s.ghost.pixels m) (hv : t.violations = pixelMarks m s) :
    pixelMarks n t = pixelMarks (m + n) s := by
  unfold pixelMarks Ghost.overrunBy at hv ⊢
  rw [hg, pixels_armed, pixels_area]
  by_cases ha : s.ghost.armed = true
  · have hc : (Ghost.pixels m s.ghost).count = s.ghost.count + m := by simp [Ghost.pixels, ha]
    rw [hc]
    simp only [ha, Bool.true_and] at hv ⊢
    by_cases hm : 0 < m ∧ windowArea s.ghost < s.ghost.count + m
    · have h2 : 0 < m + n ∧ windowArea s.ghost < s.ghost.count + (m + n) := by omega
      simp only [hm, decide_true, Bool.and_self, markIf, if_true] at hv
      have h3 : ∀ c, (markIf c .pixelCount t).violations = (mark .pixelCount s).violations := by
        intro c
        unfold markIf
        split
        · rw [mark_violations_congr (t := mark .pixelCount s) hv, mark_mark]
        · exact hv
      rw [h3]
      simp [h2, markIf]
    · have hf : (decide (0 < m) && decide (windowArea s.ghost < s.ghost.count + m)) = false := by
        simpa using hm
      rw [hf, markIf_false] at hv
      rw [markIf_violations_congr hv]
      congr 2
      rw [Bool.eq_iff_iff]
      simp only [Bool.and_eq_true, decide_eq_true_eq]
      omega
  · simp only [ha, Bool.false_and, markIf_false] at hv ⊢
    simpa [markIf] using hv

/-- One word more, then `n` words more, marks what `n + 1` words mark. -/
theorem pixelMarks_step {s t : State} (n : Nat) (hg : t.ghost = s.ghost.pixels 1)
    (hv : t.violations = (markIf (s.ghost.armed && decide (windowArea s.ghost < s.ghost.count + 1)) .pixelCount s).violations) :
    pixelMarks n t = pixelMarks (n + 1) s := by
  rw [Nat.add_comm, pixelMarks_add 1 n hg (by simpa [pixelMarks, Ghost.overrunBy] using hv)]

theorem sendNext_eq (w : Word) (s : State) :
    sendNext s w = { s with
      revTrace := .txData (lo8 w) :: .txData (hi8 w) :: s.revTrace
      fc := { s.fc with pos := s.fc.pos + 1 }
      ghost := s.ghost.pixels 1
      violations := (sendWord w s).violations } := by
  apply State.eq_of_fields <;> simp [sendNext, sendWord_ghost, Ghost.pixels]

theorem wordEvents_reverse (w : Word) : (wordEvents w).reverse = [.txData (lo8 w), .txData (hi8 w)] := rfl

/-- All a run of SENDWORDS's loop does (R143): two events a word, the position, the ghost count and the mark. -/
theorem foldl_sendNext (ws : List Word) (s : State) :
    ws.foldl sendNext s = { s with
      revTrace := (wordsEvents ws).reverse ++ s.revTrace
      fc := { s.fc with pos := s.fc.pos + BitVec.ofNat 32 ws.length }
      ghost := s.ghost.pixels ws.length
      violations := pixelMarks ws.length s } := by
  induction ws generalizing s with
  | nil => simp [wordsEvents, pixelMarks_zero]
  | cons w ws ih =>
    rw [List.foldl_cons, ih, pixelMarks_step (s := s) ws.length (by rw [sendNext_eq])
      (by rw [sendNext_eq]; exact sendWord_violations w s)]
    rw [sendNext_eq]
    apply State.eq_of_fields <;> simp [wordsEvents, wordEvents, pixels_pixels, Nat.add_comm]
    rw [BitVec.ofNat_add]
    ac_rfl

/-- SENDWORDS (R143, R144): all it changes. -/
theorem sendWords_eq (ws : List Word) (s : State) :
    sendWords ws s = { s with
      revTrace := (wordsEvents ws).reverse ++ s.revTrace
      fc := { s.fc with pos := BitVec.ofNat 32 ws.length }
      ghost := s.ghost.pixels ws.length
      violations := pixelMarks ws.length s } := by
  rw [sendWords, foldl_sendNext]
  apply State.eq_of_fields <;> simp
  exact pixelMarks_congr _ rfl rfl

theorem fillNext_eq (s : State) :
    fillNext s = { s with
      revTrace := .txData (lo8 s.fc.color) :: .txData (hi8 s.fc.color) :: s.revTrace
      fc := { s.fc with remain := s.fc.remain - 1 }
      ghost := s.ghost.pixels 1
      violations := (sendWord s.fc.color s).violations } := by
  apply State.eq_of_fields <;> simp [fillNext, sendWord_ghost, Ghost.pixels]

/-- FILLCOLOR's loop (R145, R146): it runs FC_REMAIN times and leaves FC_REMAIN = 0. -/
theorem fillLoop_eq (n : Nat) (s : State) (h : s.fc.remain.toNat = n) :
    fillLoop n s = { s with
      revTrace := (wordsEvents (List.replicate n s.fc.color)).reverse ++ s.revTrace
      fc := { s.fc with remain := 0 }
      ghost := s.ghost.pixels n
      violations := pixelMarks n s } := by
  induction n generalizing s with
  | zero =>
    have h0 : s.fc.remain = 0 := by
      apply BitVec.eq_of_toNat_eq
      simpa using h
    simp [fillLoop, wordsEvents, pixelMarks_zero, ← h0]
  | succ n ih =>
    have h0 : s.fc.remain ≠ 0 := by
      intro e
      simp [e] at h
    have hr : (s.fc.remain - 1).toNat = n := by
      rw [BitVec.toNat_sub]
      have := s.fc.remain.isLt
      simp
      omega
    rw [fillLoop, if_neg h0, ih (fillNext s) (by simpa [fillNext_eq] using hr),
      pixelMarks_step (s := s) n (by rw [fillNext_eq]) (by rw [fillNext_eq]; exact sendWord_violations _ s)]
    rw [fillNext_eq]
    apply State.eq_of_fields <;> simp [wordsEvents, wordEvents, pixels_pixels, Nat.add_comm, List.replicate_succ]

/-- FILLCOLOR (R145, R146): all it changes. -/
theorem fillColor_eq (color : Word) (count : DWord) (s : State) :
    fillColor color count s = { s with
      revTrace := (wordsEvents (List.replicate count.toNat color)).reverse ++ s.revTrace
      fc := { s.fc with color := color, remain := 0 }
      ghost := s.ghost.pixels count.toNat
      violations := pixelMarks count.toNat s } := by
  rw [fillColor, fillLoop_eq count.toNat { s with fc := { s.fc with color := color, remain := count } } rfl]
  apply State.eq_of_fields <;> simp
  exact pixelMarks_congr _ rfl rfl

/-- The parameters of a command record (R114): all sending them changes. -/
theorem foldl_sendParam (ps : List Byte) (s : State) :
    ps.foldl sendParam s = { s with
      revTrace := (ps.map Event.txData).reverse ++ s.revTrace
      seq := { s.seq with idx := s.seq.idx + BitVec.ofNat 8 ps.length } } := by
  induction ps generalizing s with
  | nil => simp
  | cons p ps ih =>
    rw [List.foldl_cons, ih]
    apply State.eq_of_fields <;> simp [sendParam]
    rw [BitVec.ofNat_add]
    ac_rfl

theorem sendParams_eq (ps : List Byte) (s : State) :
    sendParams ps s = { s with
      revTrace := (ps.map Event.txData).reverse ++ s.revTrace
      seq := { s.seq with idx := BitVec.ofNat 8 ps.length } } := by
  rw [sendParams, foldl_sendParam]
  simp

/-- SETWIN (R130, R131): the eleven events. -/
theorem setWindow_revTrace (x1 y1 x2 y2 : Word) (s : State) :
    (setWindow x1 y1 x2 y2 s).revTrace = (windowEvents s.cfg x1 y1 x2 y2).reverse ++ s.revTrace := by
  simp [setWindow, windowEvents]

@[simp] theorem setWindow_trace (x1 y1 x2 y2 : Word) (s : State) :
    (setWindow x1 y1 x2 y2 s).trace = s.trace ++ windowEvents s.cfg x1 y1 x2 y2 := by
  simp [State.trace, setWindow_revTrace]

theorem settleWindow_disarmed {s : State} (h : s.ghost.armed = false) : settleWindow s = s := by
  simp [settleWindow, h, markIf]

/-- What SETWIN leaves in the fault mark: V2 where the window leaves the display, V3 where the window armed before was
not filled exactly. -/
theorem setWindow_violations (x1 y1 x2 y2 : Word) (s : State) :
    (setWindow x1 y1 x2 y2 s).violations =
      (settleWindow (markIf (!windowInside x1 y1 x2 y2 s) .windowOutside s)).violations := by
  simp only [setWindow, txCmd_violations]
  rw [settleWindow_disarmed (by simp)]
  simp only [txData_violations, txCmd_violations]
  rw [settleWindow_disarmed (by simp)]
  simp only [txData_violations, txCmd_violations]
  unfold settleWindow
  exact markIf_violations_congr rfl

@[simp] theorem mem_setWindow (v : Violation) (x1 y1 x2 y2 : Word) (s : State) :
    v ∈ (setWindow x1 y1 x2 y2 s).violations ↔
      (v = .pixelCount ∧ s.ghost.armed = true ∧ s.ghost.count ≠ windowArea s.ghost) ∨
        (v = .windowOutside ∧ windowInside x1 y1 x2 y2 s = false) ∨ v ∈ s.violations := by
  simp [setWindow_violations, and_comm]

/-! ### The scratch buffer and DRAWBITMAP's loop -/

/-- The words SB holds (R29): SB[0 .. SB_LEN-1]. -/
def pending (s : State) : List Word := s.sb.words.take s.sb.len

/-- Appending a word (R29): it follows the words SB holds; nothing but SB changes. -/
theorem pending_pushWord {w : Word} {s : State} (h : s.sb.len < s.sb.words.length) :
    pending (pushWord w s) = pending s ++ [w] := by
  simp only [pending, pushWord_sb]
  rw [List.set_eq_take_append_cons_drop, if_pos h, List.take_append, List.take_take]
  have : (s.sb.words.take s.sb.len).length = s.sb.len := by simp; omega
  simp [this]

theorem foldl_pushWord (ws : List Word) (s : State) (h : s.sb.len + ws.length ≤ s.sb.words.length) :
    ∃ words, ws.foldl (fun s w => pushWord w s) s = { s with sb := { words := words, len := s.sb.len + ws.length } } ∧
      words.length = s.sb.words.length ∧ words.take (s.sb.len + ws.length) = pending s ++ ws := by
  induction ws generalizing s with
  | nil => exact ⟨s.sb.words, by simp, rfl, by simp [pending]⟩
  | cons w ws ih =>
    simp only [List.length_cons] at h
    obtain ⟨words, he, hl, ht⟩ := ih (pushWord w s) (by simp; omega)
    refine ⟨words, ?_, by simpa using hl, ?_⟩
    · rw [List.foldl_cons, he]
      apply State.eq_of_fields <;> simp
      omega
    · rw [pending_pushWord (by omega)] at ht
      simpa [Nat.add_assoc, Nat.add_comm 1] using ht

/-- A source byte expanded (R160, R164): its eight colours follow the words SB holds; nothing but SB changes. -/
theorem expandByte_spec (s : State) (h : s.sb.len + 8 ≤ s.sb.words.length) :
    ∃ words, expandByte s = { s with sb := { words := words, len := s.sb.len + 8 } } ∧
      words.length = s.sb.words.length ∧
      words.take (s.sb.len + 8) = pending s ++ byteColors s.bl.fg s.bl.bg s.bl.byte := by
  exact foldl_pushWord _ s (by simpa using h)

/-- Flush (R152): the words SB holds are sent and SB is empty. -/
theorem flush_eq (s : State) :
    flush s = { s with
      sb := { s.sb with len := 0 }
      revTrace := (wordsEvents (pending s)).reverse ++ s.revTrace
      fc := { s.fc with pos := BitVec.ofNat 32 (pending s).length }
      ghost := s.ghost.pixels (pending s).length
      violations := pixelMarks (pending s).length s } := by
  simp [flush, sendWords_eq, pending]

/-- The trace of DRAWBITMAP from a point of its loop on (R167): `held` are the source bytes whose words SB holds, `k` the
bytes of a batch. -/
def blitTail (fg bg : Word) (k : Nat) : List Byte → List Byte → List Event
  | held, [] => wordsEvents (held.flatMap (byteColors fg bg))
  | held, b :: bs =>
    .srcNext b ::
      (if k ≤ held.length + 1 then wordsEvents ((held ++ [b]).flatMap (byteColors fg bg)) ++ blitTail fg bg k [] bs
      else blitTail fg bg k (held ++ [b]) bs)

theorem flatMap_byteColors_length (fg bg : Word) (bs : List Byte) :
    (bs.flatMap (byteColors fg bg)).length = 8 * bs.length := by
  induction bs with
  | nil => rfl
  | cons b bs ih => simp [ih]; omega

theorem Blitter.done_eq {b : Blitter} (h : b.done = b.total) : b = { b with done := b.total } := by
  cases b
  simp_all

/-- What DRAWBITMAP's loop has reached when SB holds the words of the source bytes `held` (R163). -/
structure BlitAt (held : List Byte) (s : State) : Prop where
  cap : s.sb.words.length = s.cfg.cap
  margin : s.cfg.margin ≤ s.cfg.cap
  batch : s.cfg.batch ≤ s.cfg.cap
  len : s.sb.len = 8 * held.length
  words : pending s = held.flatMap (byteColors s.bl.fg s.bl.bg)
  short : held.length < s.cfg.batch / 8

theorem BlitAt.flush_iff {held : List Byte} {s : State} (_ : BlitAt held s) :
    s.cfg.cap - s.cfg.margin < 8 * (held.length + 1) ↔ s.cfg.batch / 8 ≤ held.length + 1 := by
  rw [batch_eq]
  omega

/-- One turn of DRAWBITMAP's loop (R160, R163). -/
theorem blitByte_spec {held : List Byte} {s : State} (b : Byte) (h : BlitAt held s) :
    ∃ words pos, words.length = s.cfg.cap ∧
      (if s.cfg.batch / 8 ≤ held.length + 1 then
        blitByte b s = { s with
          sb := { words := words, len := 0 }
          bl := { s.bl with byte := b, done := s.bl.done + 8 }
          revTrace := (wordsEvents ((held ++ [b]).flatMap (byteColors s.bl.fg s.bl.bg))).reverse ++ s.revTrace
          fc := { s.fc with pos := pos }
          ghost := s.ghost.pixels (8 * (held.length + 1))
          violations := pixelMarks (8 * (held.length + 1)) s }
      else
        blitByte b s = { s with
          sb := { words := words, len := s.sb.len + 8 }
          bl := { s.bl with byte := b, done := s.bl.done + 8 } } ∧
        words.take (s.sb.len + 8) = (held ++ [b]).flatMap (byteColors s.bl.fg s.bl.bg)) := by
  have hb := h.batch
  have hs := h.short
  obtain ⟨words, he, hl, ht⟩ := expandByte_spec { s with bl := { s.bl with byte := b } } (by
    have hlen := h.len
    have hcap := h.cap
    simp only
    rw [batch_eq] at hb hs
    omega)
  simp only at he hl ht
  have hp : pending { s with bl := { s.bl with byte := b } } = pending s := rfl
  have hw : words.take (s.sb.len + 8) = (held ++ [b]).flatMap (byteColors s.bl.fg s.bl.bg) := by
    rw [ht, hp, h.words]
    simp
  refine ⟨words, BitVec.ofNat 32 (8 * (held.length + 1)), by rw [hl, h.cap], ?_⟩
  have e : blitByte b s = flushCheck { s with
      sb := { words := words, len := s.sb.len + 8 }
      bl := { s.bl with byte := b, done := s.bl.done + 8 } } := by
    simp only [blitByte, he, pixelsPerByte_eq]
    rfl
  have hlen : s.sb.len + 8 = 8 * (held.length + 1) := by rw [h.len]; omega
  split
  · rename_i hk
    have hlt := h.flush_iff.mpr hk
    rw [e, flushCheck, if_pos (by simpa [hlen] using hlt), flush_eq]
    have hpend : pending { s with
        sb := { words := words, len := s.sb.len + 8 }
        bl := { s.bl with byte := b, done := s.bl.done + 8 } } =
          (held ++ [b]).flatMap (byteColors s.bl.fg s.bl.bg) := hw
    rw [hpend, flatMap_byteColors_length]
    apply State.eq_of_fields <;> simp
    exact pixelMarks_congr _ rfl rfl
  · rename_i hk
    have hlt := fun x => hk (h.flush_iff.mp x)
    refine ⟨?_, hw⟩
    rw [e, flushCheck, if_neg (by simpa [hlen] using hlt)]

/-- DRAWBITMAP's loop and its final flush (R160, R163, R167), where the source answers every call: the source bytes and
their words in the order of the batches, SB empty, and nothing else changed but the working registers. -/
theorem blitLoop_ok (bytes : List Byte) {held rest : List Byte} {s : State} (h : BlitAt held s)
    (hsrc : s.source = bytes ++ rest) (htot : s.bl.done.toNat + 8 * bytes.length = s.bl.total.toNat) :
    ∃ s' words byte pos, blitLoop bytes.length s = .ok s' ∧ words.length = s.cfg.cap ∧
      flush s' = { s with
        sb := { words := words, len := 0 }
        bl := { s.bl with done := s.bl.total, byte := byte }
        source := rest
        revTrace := (blitTail s.bl.fg s.bl.bg (s.cfg.batch / 8) held bytes).reverse ++ s.revTrace
        fc := { s.fc with pos := pos }
        ghost := s.ghost.pixels (8 * held.length + 8 * bytes.length)
        violations := pixelMarks (8 * held.length + 8 * bytes.length) s } := by
  induction bytes generalizing held s with
  | nil =>
    refine ⟨s, s.sb.words, s.bl.byte, BitVec.ofNat 32 (8 * held.length), rfl, h.cap, ?_⟩
    rw [flush_eq, h.words, flatMap_byteColors_length]
    have hd : s.bl.done = s.bl.total := BitVec.eq_of_toNat_eq (by simpa using htot)
    apply State.eq_of_fields <;> simp [blitTail]
    · exact Blitter.done_eq hd
    · simpa using hsrc
  | cons b bytes ih =>
    simp only [List.length_cons] at htot
    have htl := s.bl.total.isLt
    have hlt : s.bl.done < s.bl.total := by
      rw [BitVec.lt_def]
      omega
    have hdone : (s.bl.done + 8).toNat = s.bl.done.toNat + 8 := by
      rw [BitVec.toNat_add]
      simp
      omega
    obtain ⟨s1, e1⟩ : ∃ s1, s1 = emit (.srcNext b) { s with source := bytes ++ rest } := ⟨_, rfl⟩
    have hstep : blitLoop (b :: bytes).length s = blitLoop bytes.length (blitByte b s1) := by
      simp [blitLoop, hlt, srcNext, hsrc, e1]
    have h1 : BlitAt held s1 := e1 ▸ ⟨h.cap, h.margin, h.batch, h.len, h.words, h.short⟩
    have hcfg : s1.cfg = s.cfg := by rw [e1]; rfl
    have hbl : s1.bl = s.bl := by rw [e1]; rfl
    have hlen := h1.len
    obtain ⟨words, pos, hwl, hspec⟩ := blitByte_spec b h1
    rw [hstep]
    generalize blitByte b s1 = s2 at hspec
    rw [hcfg] at hwl
    rw [hcfg, hbl] at hspec
    have hk0 : 0 < s.cfg.batch / 8 := by
      rw [batch_eq]
      omega
    split at hspec
    · rename_i hk
      have hc2 : s2.cfg = s.cfg := by rw [hspec, ← hcfg]
      have hb2 : s2.bl = { s.bl with byte := b, done := s.bl.done + 8 } := by rw [hspec, ← hbl]
      obtain ⟨s', words', byte', pos', hl, hw', hf⟩ := ih (held := []) (s := s2)
        ⟨by rw [hspec]; exact hwl, by rw [hc2]; exact h.margin, by rw [hc2]; exact h.batch,
          by rw [hspec]; rfl, by simp [pending, hspec], by rw [hc2]; exact hk0⟩
        (by rw [hspec, e1]; rfl) (by rw [hb2]; simp only; omega)
      refine ⟨s', words', byte', pos', hl, by rw [hw', hc2], ?_⟩
      have hv : pixelMarks (8 * bytes.length) s2 = pixelMarks (8 * held.length + 8 * (b :: bytes).length) s := by
        have hp := pixelMarks_add (s := s1) (t := s2) (8 * (held.length + 1)) (8 * bytes.length) (by rw [hspec]) (by rw [hspec])
        rw [hp, pixelMarks_congr _ (s := s1) (t := s) (by rw [e1]; rfl) (by rw [e1]; rfl)]
        congr 1
        simp
        omega
      rw [hf, hb2, hc2]
      simp only [List.length_nil, Nat.mul_zero, Nat.zero_add]
      rw [hv]
      apply State.eq_of_fields <;> simp [hspec, e1, blitTail, hk, pixels_pixels]
      congr 1
      omega
    · rename_i hk
      obtain ⟨hspec, hw⟩ := hspec
      have hc2 : s2.cfg = s.cfg := by rw [hspec, ← hcfg]
      have hb2 : s2.bl = { s.bl with byte := b, done := s.bl.done + 8 } := by rw [hspec, ← hbl]
      obtain ⟨s', words', byte', pos', hl, hw', hf⟩ := ih (held := held ++ [b]) (s := s2)
        ⟨by rw [hspec]; exact hwl, by rw [hc2]; exact h.margin, by rw [hc2]; exact h.batch,
          by rw [hspec]; simp; omega, by rw [hb2]; simpa [pending, hspec] using hw, by rw [hc2]; simp; omega⟩
        (by rw [hspec, e1]; rfl) (by rw [hb2]; simp only; omega)
      refine ⟨s', words', byte', pos', hl, by rw [hw', hc2], ?_⟩
      have hn : 8 * (held ++ [b]).length + 8 * bytes.length = 8 * held.length + 8 * (b :: bytes).length := by
        simp
        omega
      have hv : ∀ n, pixelMarks n s2 = pixelMarks n s := fun n =>
        pixelMarks_congr n (by rw [hspec, e1]; rfl) (by rw [hspec, e1]; rfl)
      rw [hf, hb2, hc2, hn, hv]
      apply State.eq_of_fields <;> simp [hspec, e1, blitTail, hk]

/-! ### DRAWBITMAP's loop in every state: what it can change, whatever SB and the source hold -/

theorem foldl_pushWord_frame (ws : List Word) (s : State) :
    ∃ words, ws.foldl (fun s w => pushWord w s) s = { s with sb := { words := words, len := s.sb.len + ws.length } } ∧
      words.length = s.sb.words.length := by
  induction ws generalizing s with
  | nil => exact ⟨s.sb.words, rfl, rfl⟩
  | cons w ws ih =>
    obtain ⟨words, he, hl⟩ := ih (pushWord w s)
    refine ⟨words, ?_, by simpa using hl⟩
    rw [List.foldl_cons, he]
    apply State.eq_of_fields <;> simp
    omega

/-- A source byte expanded, in every state: nothing but SB changes, and SB keeps its number of words. -/
theorem expandByte_frame (s : State) :
    ∃ words, expandByte s = { s with sb := { words := words, len := s.sb.len + 8 } } ∧
      words.length = s.sb.words.length :=
  foldl_pushWord_frame (byteColors s.bl.fg s.bl.bg s.bl.byte) s

/-- One turn of the loop in every state (R160): some words `ws` may be sent. -/
theorem blitByte_frame (b : Byte) (s : State) :
    ∃ ws words len pos, words.length = s.sb.words.length ∧
      blitByte b s = { s with
        sb := { words := words, len := len }
        bl := { s.bl with byte := b, done := s.bl.done + 8 }
        revTrace := (wordsEvents ws).reverse ++ s.revTrace
        fc := { s.fc with pos := pos }
        ghost := s.ghost.pixels ws.length
        violations := pixelMarks ws.length s } := by
  obtain ⟨words, he, hl⟩ := expandByte_frame { s with bl := { s.bl with byte := b } }
  simp only at he hl
  simp only [blitByte, he, pixelsPerByte_eq]
  unfold flushCheck
  split
  · refine ⟨words.take (s.sb.len + 8), words, 0, BitVec.ofNat 32 (words.take (s.sb.len + 8)).length, hl, ?_⟩
    rw [flush_eq]
    apply State.eq_of_fields <;> try rfl
    exact pixelMarks_congr _ rfl rfl
  · refine ⟨[], words, s.sb.len + 8, s.fc.pos, hl, ?_⟩
    apply State.eq_of_fields <;> simp [wordsEvents, pixelMarks_zero]

/-- Neither a mode switch, a command nor a delay: an event DRAWBITMAP's loop may issue. -/
def Event.isBlit : Event → Bool
  | .txData _ => true
  | .srcNext _ => true
  | .txCmd _ => false
  | .txSetData => false
  | .txSetCmd => false
  | .clkDelay _ => false

theorem wordsEvents_isBlit {ws : List Word} {e : Event} (h : e ∈ wordsEvents ws) : e.isBlit = true := by
  obtain ⟨w, -, hw⟩ := List.mem_flatMap.mp h
  simp only [wordEvents, List.mem_cons, List.not_mem_nil, or_false] at hw
  rcases hw with rfl | rfl <;> rfl

theorem sourceCalls_append (es es' : List Event) : sourceCalls (es ++ es') = sourceCalls es ++ sourceCalls es' := by
  simp [sourceCalls]

theorem sourceCalls_wordsEvents (ws : List Word) : sourceCalls (wordsEvents ws) = [] := by
  induction ws with
  | nil => rfl
  | cons w ws ih => simpa [wordsEvents, sourceCalls, wordEvents] using ih

/-- `t` is `s` after some turns of DRAWBITMAP's loop that issued `evs` and sent `n` pixels. -/
def BlitStep (evs : List Event) (n : Nat) (s t : State) : Prop :=
  (∀ e ∈ evs, e.isBlit = true) ∧ s.source = sourceCalls evs ++ t.source ∧
    t.sb.words.length = s.sb.words.length ∧
    t = { s with
      sb := t.sb
      bl := { s.bl with byte := t.bl.byte, done := t.bl.done }
      source := t.source
      revTrace := evs.reverse ++ s.revTrace
      fc := { s.fc with pos := t.fc.pos }
      ghost := s.ghost.pixels n
      violations := pixelMarks n s }

/-- The loop in every state: it ends well, or where the source is empty (V7). -/
theorem blitLoop_frame (fuel : Nat) (s : State) :
    ∃ evs n t, BlitStep evs n s t ∧
      (blitLoop fuel s = .ok t ∨
        (blitLoop fuel s = .error (.sourceExhausted (mark .sourceExhausted t)) ∧ t.source = [])) := by
  have hrefl : ∀ s, BlitStep [] 0 s s := fun s =>
    ⟨by simp, rfl, rfl, by apply State.eq_of_fields <;> simp [pixelMarks_zero]⟩
  induction fuel generalizing s with
  | zero => exact ⟨[], 0, s, hrefl s, .inl rfl⟩
  | succ fuel ih =>
    rw [blitLoop]
    split
    · cases hs : s.source with
      | nil => exact ⟨[], 0, s, hrefl s, .inr ⟨by simp [srcNext, hs], hs⟩⟩
      | cons b rest =>
        simp only [srcNext, hs]
        obtain ⟨ws, words, len, pos, hl, he⟩ := blitByte_frame b (emit (.srcNext b) { s with source := rest })
        generalize blitByte b (emit (.srcNext b) { s with source := rest }) = s2 at he
        obtain ⟨evs, n, t, ⟨hev, hsrc, hwl, ht⟩, ho⟩ := ih s2
        refine ⟨.srcNext b :: (wordsEvents ws ++ evs), ws.length + n, t, ⟨?_, ?_, ?_, ?_⟩, ho⟩
        · intro e h
          rcases List.mem_cons.mp h with rfl | h
          · rfl
          · rcases List.mem_append.mp h with h | h
            · exact wordsEvents_isBlit h
            · exact hev e h
        · have hc : ∀ es, sourceCalls (.srcNext b :: es) = b :: sourceCalls es := fun _ => rfl
          rw [hc, sourceCalls_append, sourceCalls_wordsEvents]
          simpa [he, hs] using hsrc
        · rw [hwl, he]
          simpa using hl
        · have hv : pixelMarks n s2 = pixelMarks (ws.length + n) s := by
            rw [pixelMarks_add (s := emit (.srcNext b) { s with source := rest }) ws.length n (by rw [he]) (by rw [he])]
            exact pixelMarks_congr _ rfl rfl
          rw [ht, hv]
          apply State.eq_of_fields <;> simp [he, pixels_pixels]
    · exact ⟨[], 0, s, hrefl s, .inl rfl⟩

/-- Where the loop ends well it has asked the source once for every turn (R62, R163). -/
theorem blitLoop_ok_source (fuel : Nat) {s t : State} (h : blitLoop fuel s = .ok t)
    (htot : s.bl.done.toNat + 8 * fuel = s.bl.total.toNat) : fuel ≤ s.source.length := by
  induction fuel generalizing s with
  | zero => exact Nat.zero_le _
  | succ fuel ih =>
    have htl := s.bl.total.isLt
    have hlt : s.bl.done < s.bl.total := by
      rw [BitVec.lt_def]
      omega
    have hdone : (s.bl.done + 8).toNat = s.bl.done.toNat + 8 := by
      rw [BitVec.toNat_add]
      simp
      omega
    rw [blitLoop, if_pos hlt] at h
    cases hs : s.source with
    | nil => simp [srcNext, hs] at h
    | cons b rest =>
      simp only [srcNext, hs] at h
      obtain ⟨ws, words, len, pos, -, he⟩ := blitByte_frame b (emit (.srcNext b) { s with source := rest })
      have hle := ih h (by rw [he]; simp only [emit_bl]; omega)
      rw [he] at hle
      simpa using hle

end Sys2Proof.Machine
end

