-- ==== Sys2Proof/Laws/PerInstr.lean ====
section
/-! SUPPORT. A statement about every constructor of Instr as syntax: how many bytes its encoding has (rules R81, R91). -/

namespace Sys2Proof.Laws.EncodedLength

/-- The bytes of an instruction: the selector and its fields (R81), or 1, 2 and 2 + len for the records (R91). -/
def bytes (addrBits : Nat) : Instr → Nat
  | .init => 1
  | .runseq _ => 1 + addrBytes addrBits
  | .setwin _ _ _ _ => 1 + 4 * 2
  | .begindata => 1
  | .enddata => 1
  | .sendwords words => 1 + 4 + 2 * words.length
  | .fillcolor _ _ => 1 + 2 + 4
  | .fillscreen _ => 1 + 2
  | .drawbitmap _ _ _ _ _ _ => 1 + 6 * 2
  | .setrot _ => 1 + 1
  | .endRec => 1
  | .delay _ => 2
  | .cmd _ params => 2 + params.length

/-- The encoding has the length its format gives it. -/
def Statement (i : Instr) : Prop := ∀ addrBits, (encode addrBits i).length = bytes addrBits i

theorem beBytes_length (k v : Nat) : (beBytes k v).length = k := by
  induction k with
  | zero => rfl
  | succ k ih => simp [beBytes, ih]

theorem flatMap_wordBytes_length (ws : List Word) : (ws.flatMap wordBytes).length = 2 * ws.length := by
  induction ws with
  | nil => rfl
  | cons w ws ih => simp [wordBytes, ih]; omega

theorem init : Statement .init := fun _ => rfl
theorem runseq (table : Nat) : Statement (.runseq table) := fun _ => by
  simp [encode, bytes, beBytes_length, Nat.add_comm]
theorem setwin (x1 y1 x2 y2 : Word) : Statement (.setwin x1 y1 x2 y2) := fun _ => rfl
theorem begindata : Statement .begindata := fun _ => rfl
theorem enddata : Statement .enddata := fun _ => rfl
theorem sendwords (words : List Word) : Statement (.sendwords words) := fun _ => by
  simp only [encode, bytes, List.length_cons, List.length_append, beBytes_length, flatMap_wordBytes_length]
  omega
theorem fillcolor (color : Word) (count : DWord) : Statement (.fillcolor color count) := fun _ => rfl
theorem fillscreen (color : Word) : Statement (.fillscreen color) := fun _ => rfl
theorem drawbitmap (w h ox oy fg bg : Word) : Statement (.drawbitmap w h ox oy fg bg) := fun _ => rfl
theorem setrot (r : Byte) : Statement (.setrot r) := fun _ => rfl
theorem endRec : Statement .endRec := fun _ => rfl
theorem delay (ms : Byte) : Statement (.delay ms) := fun _ => rfl
theorem cmd (c : Byte) (params : List Byte) : Statement (.cmd c params) := fun _ => by
  simp [encode, bytes]
  omega

end Sys2Proof.Laws.EncodedLength
end

