-- ==== Sys2Proof/Laws/Step.lean ====
section
/-! SUPPORT. All a step can do, said once (rules R80, R111, R186), and what a meaning that answers a next state has done. -/

namespace Sys2Proof.Machine

/-- A request that answers a next state was accepted: BUSY was 0 (R36). -/
theorem accept_next {s t : State} {k : State → Result} (h : accept s k = .next t) :
    s.busy = false ∧ k { s with busy := true } = .next t := by
  unfold accept at h
  split at h
  · cases h
  · rename_i hb
    exact ⟨by simpa using hb, h⟩

theorem complete_next {s t : State} (h : complete s = .next t) : t = { s with busy := false } := by
  cases h
  rfl

/-- The phases in which a record is fetched. -/
def Phase.runsTable : Phase → Bool
  | .runseq => true
  | .initReset => true
  | .initWake => true
  | .idle => false
  | .initLoadWake => false
  | .initRotate => false

/-- What a step that answers a next state has done. -/
inductive StepCase (s t : State) : Prop where
  /-- The end of the execution. -/
  | ended (phase : s.seq.phase = .idle) (script : s.script = []) (eq : t = endOfExecution s)
  /-- A request of the host. -/
  | request (phase : s.seq.phase = .idle) (i : Instr) (rest : List Byte)
      (decoded : decodeRequest s.cfg.tblAddrBits s.script = .ok (i, rest)) (run : exec i { s with script := rest } = .next t)
  /-- A record of the table being run. -/
  | record (phase : s.seq.phase.runsTable = true) (i : Instr) (rest : List Byte)
      (decoded : decodeRecord (recordBytes s) = .ok (i, rest)) (run : exec i s = .next t)
  /-- INIT turns to its second table. -/
  | loadWake (phase : s.seq.phase = .initLoadWake) (eq : t = Sys2Proof.Machine.initLoadWake s)
  /-- INIT does its rotation. -/
  | rotate (phase : s.seq.phase = .initRotate) (eq : t = Sys2Proof.Machine.initRotate s)

theorem fetchRecord_next {s t : State} (hp : s.seq.phase.runsTable = true)
    (h : (match fetchRecord s with | .run i s' => exec i s' | .stop o => o) = .next t) : StepCase s t := by
  unfold fetchRecord at h
  split at h
  · rename_i i s' e
    split at e
    · rename_i j rest hd
      cases e
      exact .record hp i rest hd h
    · cases e
  · rename_i o e
    split at e
    · cases e
    · cases e
      cases h

/-- A step that answers a next state ran on a configuration that can be built, and did one of five things. -/
theorem step_cases {s t : State} (h : step s = .next t) : s.cfg.built = true ∧ StepCase s t := by
  unfold step fetch at h
  by_cases hb : s.cfg.built = true
  · refine ⟨hb, ?_⟩
    rw [if_pos hb] at h
    cases hp : s.seq.phase <;> rw [hp] at h
    · simp only [fetchRequest] at h
      cases hs : s.script with
      | nil =>
        rw [hs] at h
        cases h
        exact .ended hp hs rfl
      | cons b bs =>
        rw [hs] at h
        simp only at h
        cases hd : decodeRequest s.cfg.tblAddrBits (b :: bs) with
        | error e =>
          rw [hd] at h
          cases h
        | ok p =>
          obtain ⟨i, rest⟩ := p
          rw [hd] at h
          exact .request hp i rest (by rw [hs, hd]) h
    · exact fetchRecord_next (by rw [hp]; rfl) h
    · exact fetchRecord_next (by rw [hp]; rfl) h
    · cases h
      exact .loadWake hp rfl
    · exact fetchRecord_next (by rw [hp]; rfl) h
    · cases h
      exact .rotate hp rfl
  · rw [if_neg hb] at h
    cases h

/-! ### Several steps -/

theorem runSteps_succ (k : Nat) {s t : State} (h : step s = .next t) : runSteps (k + 1) s = runSteps k t := by
  rw [runSteps, h]

theorem runSteps_add (j k : Nat) {s t : State} (h : runSteps j s = .next t) : runSteps (j + k) s = runSteps k t := by
  induction j generalizing s with
  | zero =>
    cases h
    rw [Nat.zero_add]
  | succ j ih =>
    rw [Nat.add_right_comm, runSteps]
    rw [runSteps] at h
    split at h
    · exact ih h
    · cases h
    · cases h

/-- The rotation leaves the dimensions of the table of R181 (R25, R180). -/
theorem rotate_ds (r : BitVec 2) (s : State) :
    displayAgrees s.cfg (rotate r s).ds ∧ (rotate r s).ds.rot = r ∧ (rotate r s).ds.valid = true ∧
      (s.cfg.nativeW ≠ 0 → s.cfg.nativeH ≠ 0 → (rotate r s).ds.width ≠ 0 ∧ (rotate r s).ds.height ≠ 0) := by
  unfold displayAgrees rotate rotMap
  have h : r = 0 ∨ r = 1 ∨ r = 2 ∨ r = 3 := by
    revert r
    decide
  rcases h with rfl | rfl | rfl | rfl <;> simp <;> tauto

/-- DRAWBITMAP with the 8 pixels of a source byte written out (R9, R160). -/
theorem execDrawbitmap_eq (w h ox oy fg bg : Word) (s : State) :
    execDrawbitmap w h ox oy fg bg s =
      accept s fun s =>
        if (pixelProduct w h).toNat % 8 = 0 then
          match blitLoop ((pixelProduct w h).toNat / 8) (beginBitmap w h ox oy fg bg s) with
          | .ok s1 => complete (txSetCmd (flush s1))
          | .error f => .fault f
        else .refused .bitmapNotWholeBytes := rfl

/-- DRAWBITMAP that answers a next state (R160): accepted, whole bytes, and its loop ended well in a `BlitStep`. -/
theorem execDrawbitmap_next {w h ox oy fg bg : Word} {s t : State} (hn : execDrawbitmap w h ox oy fg bg s = .next t) :
    s.busy = false ∧ (pixelProduct w h).toNat % 8 = 0 ∧
      ∃ evs n u, BlitStep evs n (beginBitmap w h ox oy fg bg { s with busy := true }) u ∧
        blitLoop ((pixelProduct w h).toNat / 8) (beginBitmap w h ox oy fg bg { s with busy := true }) = .ok u ∧
        t = { txSetCmd (flush u) with busy := false } := by
  rw [execDrawbitmap_eq] at hn
  obtain ⟨hb, hk⟩ := accept_next hn
  refine ⟨hb, ?_⟩
  split at hk
  · rename_i h8
    refine ⟨h8, ?_⟩
    obtain ⟨evs, n, u, hu, ho⟩ := blitLoop_frame ((pixelProduct w h).toNat / 8)
      (beginBitmap w h ox oy fg bg { s with busy := true })
    rcases ho with ho | ⟨ho, -⟩
    · rw [ho] at hk
      exact ⟨evs, n, u, hu, ho, complete_next hk⟩
    · rw [ho] at hk
      cases hk
  · cases hk

/-! ### What each request has done when it answers a next state -/

theorem execBegindata_next {s t : State} (h : execBegindata s = .next t) :
    s.busy = false ∧
      t = { txSetData (markIf s.ghost.dmOpen .bracketPairing { s with busy := true }) with busy := false } :=
  ⟨(accept_next h).1, complete_next (accept_next h).2⟩

theorem execEnddata_next {s t : State} (h : execEnddata s = .next t) :
    s.busy = false ∧
      t = { txSetCmd (markIf (!s.ghost.dmOpen) .bracketPairing { s with busy := true }) with busy := false } :=
  ⟨(accept_next h).1, complete_next (accept_next h).2⟩

theorem execSendwords_next {ws : List Word} {s t : State} (h : execSendwords ws s = .next t) :
    s.busy = false ∧ t = { sendWords ws (checkArmed { s with busy := true }) with busy := false } :=
  ⟨(accept_next h).1, complete_next (accept_next h).2⟩

theorem execFillcolor_next {color : Word} {count : DWord} {s t : State} (h : execFillcolor color count s = .next t) :
    s.busy = false ∧
      t = { fillColor color count (checkFill count.toNat (checkArmed { s with busy := true })) with busy := false } :=
  ⟨(accept_next h).1, complete_next (accept_next h).2⟩

theorem execSetwin_next {x1 y1 x2 y2 : Word} {s t : State} (h : execSetwin x1 y1 x2 y2 s = .next t) :
    s.busy = false ∧ t = { setWindow x1 y1 x2 y2 (checkNoBracket { s with busy := true }) with busy := false } :=
  ⟨(accept_next h).1, complete_next (accept_next h).2⟩

theorem execSetrot_next {r : Byte} {s t : State} (h : execSetrot r s = .next t) :
    s.busy = false ∧
      t = { (if r.toNat ≤ 3 then
          rotate (r.setWidth 2) (checkNoBracket { s with busy := true, lat := { s.lat with r := r } })
        else mark .rotationSelector (checkNoBracket { s with busy := true, lat := { s.lat with r := r } })) with
        busy := false } :=
  ⟨(accept_next h).1, complete_next (accept_next h).2⟩

theorem execInit_next {s t : State} (h : execInit s = .next t) :
    s.busy = false ∧ t = startTable .initReset 0 (checkNoBracket { s with busy := true }) := by
  obtain ⟨hb, hk⟩ := accept_next h
  cases hk
  exact ⟨hb, rfl⟩

theorem execRunseq_next {table : Nat} {s t : State} (h : execRunseq table s = .next t) :
    s.busy = false ∧
      t = startTable .runseq table
        (checkNoBracket { s with busy := true, lat := { s.lat with table := table } }) := by
  obtain ⟨hb, hk⟩ := accept_next h
  cases hk
  exact ⟨hb, rfl⟩

/-- FILLSCREEN (R149): SETWIN of the whole screen, then FILLCOLOR, inside a bracket by the parameter (R150). -/
theorem execFillscreen_next {color : Word} {s t : State} (h : execFillscreen color s = .next t) :
    s.busy = false ∧ s.ds.valid = true ∧
      ∃ u, u = setWindow 0 0 (s.ds.width - 1) (s.ds.height - 1) (checkNoBracket { s with busy := true }) ∧
        (s.cfg.fillscreenBracket = false →
          t = { fillColor color (pixelProduct s.ds.width s.ds.height) u with busy := false }) ∧
        (s.cfg.fillscreenBracket = true →
          t = { txSetCmd (fillColor color (pixelProduct s.ds.width s.ds.height) (txSetData u)) with busy := false }) := by
  obtain ⟨hb, hk⟩ := accept_next h
  by_cases hv : s.ds.valid = true
  · refine ⟨hb, hv, _, rfl, fun hf => ?_, fun hf => ?_⟩ <;>
      simp only [hv, hf, if_true, if_false, Bool.false_eq_true] at hk <;> exact complete_next hk
  · simp [hv] at hk

end Sys2Proof.Machine
end

