-- ==== Sys2Proof/Tests/Slice0.lean ====
section
/-! SUPPORT. Tests: ill-formed terms refused, words written out from the spec's encodings, vectors of 95_test_vectors.md one step each, and a witness for the hypotheses of every statement. -/

-- Each kernel evaluation below would else run in a thread of its own, and the threads' stacks fill the memory limit.
set_option Elab.async false

namespace Sys2Proof.Tests

open Sys2Proof Sys2Proof.Machine

/-- The events an outcome adds to an empty trace. -/
def events (o : Result) : Option (List Event) :=
  match o with
  | .next t => some t.trace
  | .fault _ => none
  | .refused _ => none

/-- What an observer reads from the next state. -/
def after {α : Type} (f : State → α) (o : Result) : Option α :=
  match o with
  | .next t => some (f t)
  | .fault _ => none
  | .refused _ => none

/-- Why a step stopped. -/
def refusal (o : Result) : Option Refusal :=
  match o with
  | .refused r => some r
  | .next _ => none
  | .fault _ => none

/-- The state a fault leaves. -/
def faulted (o : Result) : Option State :=
  match o with
  | .fault (.tableOverrun u) => some u
  | .fault (.sourceExhausted u) => some u
  | .fault (.displayStateUnset u) => some u
  | .next _ => none
  | .refused _ => none

/-- The configuration of 95_test_vectors.md after an INIT: native 320 by 240, rotation 0. -/
def shown : State := { State.reset with ds := ⟨320, 240, 0, true⟩ }

/-- A 3 by 2 panel. -/
def tiny (bracket : Bool) (ds : DisplayState) : State :=
  { State.reset with
    cfg := { Config.reset with nativeW := 3, nativeH := 2, fillscreenBracket := bracket }, ds := ds }

/-- CAP and MARGIN of a vector, and its source. -/
def blitting (window : BlitWindow) (cap margin : Nat) (source : List Byte) : State :=
  { shown with
    cfg := { Config.reset with blitWindow := window, cap := cap, margin := margin },
    sb := ⟨List.replicate cap 0, 0⟩, source := source }

/-- The table `T` in TBL at address 0, and the bytes `behind` right after it, which are no part of it. -/
def loaded (T behind : List Byte) (s : State) : State :=
  { s with tbl := placeBytes s.cfg (T ++ behind) 0 [], tables := [⟨0, T.length⟩] }

/-- A RUNSEQ of that table in progress, its next record at `tp`. -/
def running (T behind : List Byte) (tp : Nat) : State :=
  let s := loaded T behind State.reset
  { s with busy := true, seq := { s.seq with phase := .runseq, tp := tp, pos := tp } }

/-- The table of S1: `11 00 55 96 29 00 00`. -/
def tableS1 : List Byte := [0x11, 0x00, 0x55, 0x96, 0x29, 0x00, 0x00]

/-! ### Well-formedness refuses -/

theorem test_wf_refuses_wide_table : (Instr.runseq (2 ^ 32)).wf 32 = false := by decide
theorem test_wf_refuses_end_mark : (Instr.cmd 0x00 []).wf 32 = false := by decide
theorem test_wf_refuses_delay_mark : (Instr.cmd 0x55 []).wf 32 = false := by decide
theorem test_wf_refuses_long_params : (Instr.cmd 0x11 (List.replicate 256 0)).wf 32 = false := by decide +kernel
theorem test_wf_refuses_long_words (ws : List Word) (h : 2 ^ 32 ≤ ws.length) : (Instr.sendwords ws).wf 32 = false := by
  simpa [Instr.wf] using h
theorem test_table_q1 : tableWellFormed [0x00] = true := by decide
theorem test_table_q7 : tableWellFormed [0x11, 0x00, 0x55] = false := by decide
theorem test_table_q8 : tableWellFormed [0x11, 0x02, 0xAA] = false := by decide
theorem test_table_q9 : tableWellFormed [0x11, 0x00, 0x29, 0x00] = false := by decide
theorem test_config_reset_built : Config.reset.built = true ∧ Config.reset.tablesOk = true := by decide
theorem test_config_without_width : ({ Config.reset with nativeW := 0 } : Config).built = false := by decide
theorem test_config_without_height : ({ Config.reset with nativeH := 0 } : Config).built = false := by decide
theorem test_config_margin_above_cap : ({ Config.reset with cap := 8, margin := 9 } : Config).built = false := by decide
theorem test_config_batch_above_cap : ({ Config.reset with cap := 8, margin := 0 } : Config).built = false := by decide
theorem test_config_no_address : ({ Config.reset with tblAddrBits := 0 } : Config).built = false := by decide
theorem test_config_bad_table : ({ Config.reset with tableWakeOn := [0x11] } : Config).tablesOk = false := by decide
/-- The batch sizes of R153. -/
theorem test_batch_sizes :
    [(32, 8), (20, 8), (16, 8), (8, 8), (100, 8), (100, 20)].map
      (fun p => ({ Config.reset with cap := p.1, margin := p.2 } : Config).batch) = [32, 16, 16, 8, 96, 88] := by decide

/-! ### Words written out from the spec's encodings -/

theorem test_decode_init : decodeRequest 32 [0x01] = .ok (.init, []) := by rfl
theorem test_decode_runseq : decodeRequest 32 [0x02, 0x00, 0x00, 0x01, 0x05] = .ok (.runseq 261, []) := by decide +kernel
theorem test_decode_runseq_wide : decodeRequest 4 [0x02, 0x10] = .error .addressTooWide := by rfl
theorem test_decode_setwin_p4 :
    decodeRequest 32 [0x03, 0x00, 0x02, 0x00, 0x03, 0x00, 0x03, 0x00, 0x04] = .ok (.setwin 2 3 3 4, []) := by rfl
theorem test_decode_begindata : decodeRequest 32 [0x04, 0x05] = .ok (.begindata, [0x05]) := by rfl
theorem test_decode_enddata : decodeRequest 32 [0x05] = .ok (.enddata, []) := by rfl
theorem test_decode_sendwords_p4 :
    decodeRequest 32 [0x06, 0x00, 0x00, 0x00, 0x02, 0xF8, 0x00, 0x07, 0xE0] = .ok (.sendwords [0xF800, 0x07E0], []) := by
  decide +kernel
theorem test_decode_fillcolor :
    decodeRequest 32 [0x07, 0xF8, 0x00, 0x00, 0x01, 0x2C, 0x00] = .ok (.fillcolor 0xF800 76800, []) := by rfl
theorem test_decode_fillscreen_p2 : decodeRequest 32 [0x08, 0x00, 0x1F] = .ok (.fillscreen 0x001F, []) := by rfl
theorem test_decode_drawbitmap_p3 :
    decodeRequest 32 [0x09, 0x00, 0x08, 0x00, 0x02, 0x00, 0x01, 0x00, 0x01, 0xFF, 0xFF, 0x00, 0x00] =
      .ok (.drawbitmap 8 2 1 1 0xFFFF 0x0000, []) := by rfl
theorem test_decode_setrot_p5 : decodeRequest 32 [0x0A, 0x07] = .ok (.setrot 7, []) := by rfl
theorem test_decode_truncated : decodeRequest 32 [0x08, 0x00] = .error .truncated := by rfl
theorem test_decode_reserved_0 : decodeRequest 32 [0x00] = .error (.reservedSelector 0x00) := by rfl
theorem test_decode_reserved_b : decodeRequest 32 [0x0B] = .error (.reservedSelector 0x0B) := by rfl
/-- Q1: the byte after the terminator is not read. -/
theorem test_decode_end : decodeRecord [0x00, 0xAA] = .ok (.endRec, [0xAA]) := by rfl
theorem test_decode_delay : decodeRecord [0x55, 0xFF, 0x29] = .ok (.delay 255, [0x29]) := by rfl
/-- Q3: a parameter byte 0x55 or 0x00 is data. -/
theorem test_decode_cmd_q3 : decodeRecord [0xB1, 0x02, 0x00, 0x55, 0x55] = .ok (.cmd 0xB1 [0x00, 0x55], [0x55]) := by rfl
theorem test_decode_cmd_q8 : decodeRecord [0x11, 0x02, 0xAA] = .error .truncated := by rfl
theorem test_parse_s1 : parseTable tableS1 = some [.cmd 0x11 [], .delay 150, .cmd 0x29 []] := by rfl
theorem test_table_words :
    [1, 2, 3, 4, 5, 6, 7, 8, 9, 10, 0, 0x55, 0x0029].map (decodeTableWord 8) =
      [some .init, some (.runseq 0), some (.setwin 0 0 0 0), some .begindata, some .enddata, some (.sendwords []),
       some (.fillcolor 0 0), some (.fillscreen 0), some (.drawbitmap 0 0 0 0 0 0), some (.setrot 0), some .endRec,
       some (.delay 0), some (.cmd 0x29 [])] := by decide +kernel
theorem test_table_word_cmd : decodeTableWord 24 0xAA0136 = some (.cmd 0x36 [0xAA]) := by decide +kernel
theorem test_table_word_reserved : decodeTableWord 8 0x0B = none := by decide +kernel
/-- The instruction of a table word is what the next step runs. -/
theorem test_fetch_word_begindata :
    events (step (State.reset.withFetchWord 8 0x04)) = some [.txSetData] := by decide +kernel
theorem test_fetch_word_delay :
    events (step (State.reset.withFetchWord 16 0x7855)) = some [.clkDelay 120] := by decide +kernel
theorem test_encode_setwin : encode 32 (.setwin 2 3 3 4) = [0x03, 0x00, 0x02, 0x00, 0x03, 0x00, 0x03, 0x00, 0x04] := by rfl
theorem test_encode_cmd : encode 32 (.cmd 0x3A [0x05]) = [0x3A, 0x01, 0x05] := by rfl
theorem test_encode_runseq : encode 32 (.runseq 261) = [0x02, 0x00, 0x00, 0x01, 0x05] := by rfl

/-! ### Vectors, one step each -/

/-- W1: x1, x2, then y1, y2 on the wire. -/
theorem test_setwin_w1 : events (exec (.setwin 0 0 239 319) State.reset) =
    some [.txCmd 0x2A, .txData 0x00, .txData 0x00, .txData 0x00, .txData 0xEF, .txCmd 0x2B, .txData 0x00, .txData 0x00,
      .txData 0x01, .txData 0x3F, .txCmd 0x2C] := by decide +kernel
/-- W2: no validation, V2 recorded. -/
theorem test_setwin_w2 : after (fun t => (t.trace.take 5, t.violations)) (exec (.setwin 0x1234 0xABCD 0xFFFF 0x0000) shown) =
    some ([.txCmd 0x2A, .txData 0x12, .txData 0x34, .txData 0xFF, .txData 0xFF], [.windowOutside]) := by decide +kernel
theorem test_begindata_twice : after (fun t => (t.ghost.dmOpen, t.violations))
    (exec .begindata { shown with ghost := { shown.ghost with dmOpen := true } }) = some (true, [.bracketPairing]) := by
  decide +kernel
theorem test_enddata_x2 : after (fun t => (t.trace, t.ghost.dmOpen, t.violations)) (exec .enddata shown) =
    some ([.txSetCmd], false, [.bracketPairing]) := by decide +kernel
theorem test_sendwords_x3 : events (exec (.sendwords [0x1234, 0xABCD, 0x00FF]) shown) =
    some [.txData 0x12, .txData 0x34, .txData 0xAB, .txData 0xCD, .txData 0x00, .txData 0xFF] := by decide +kernel
theorem test_sendwords_x4 : events (exec (.sendwords []) shown) = some [] := by decide +kernel
theorem test_fillcolor_x5 : events (exec (.fillcolor 0xF800 3) shown) =
    some [.txData 0xF8, .txData 0x00, .txData 0xF8, .txData 0x00, .txData 0xF8, .txData 0x00] := by decide +kernel
/-- X13 in one request: 5 pixels into a window of 6. R145's V3 is recorded; R241's comes with the end. -/
theorem test_fillcolor_x13 :
    after (fun t => (t.trace.length, t.ghost.count, t.violations))
      (exec (.fillcolor 0xABCD 5) { shown with ghost := ⟨false, 10, 20, 12, 21, true, 0⟩ }) =
    some (10, 5, [.fillCount]) := by decide +kernel
/-- X12: 6 pixels into that window are no V3. -/
theorem test_fillcolor_x12 :
    after (fun t => (t.ghost.count, t.violations))
      (exec (.fillcolor 0xABCD 6) { shown with ghost := ⟨false, 10, 20, 12, 21, true, 0⟩ }) = some (6, []) := by
  decide +kernel
/-- X14: one pixel with no window armed is V4. -/
theorem test_fillcolor_x14 : after (fun t => (t.trace, t.violations)) (exec (.fillcolor 0x0001 1) State.reset) =
    some ([.txData 0x00, .txData 0x01], [.noWindow]) := by decide +kernel
/-- X8: the rotated size. -/
theorem test_fillscreen_x8 : events (exec (.fillscreen 0x07E0) (tiny false ⟨2, 3, 1, true⟩)) =
    some ([.txCmd 0x2A, .txData 0x00, .txData 0x00, .txData 0x00, .txData 0x01, .txCmd 0x2B, .txData 0x00, .txData 0x00,
      .txData 0x00, .txData 0x02, .txCmd 0x2C] ++ (List.replicate 6 [Event.txData 0x07, Event.txData 0xE0]).flatten) := by
  decide +kernel
/-- X9: the bracket. -/
theorem test_fillscreen_x9 : events (exec (.fillscreen 0x07E0) (tiny true ⟨3, 2, 0, true⟩)) =
    some ([.txCmd 0x2A, .txData 0x00, .txData 0x00, .txData 0x00, .txData 0x02, .txCmd 0x2B, .txData 0x00, .txData 0x00,
      .txData 0x00, .txData 0x01, .txCmd 0x2C, .txSetData] ++
      (List.replicate 6 [Event.txData 0x07, Event.txData 0xE0]).flatten ++ [.txSetCmd]) := by decide +kernel
/-- S3 and R170, LITERAL. -/
theorem test_drawbitmap_s3 : events (exec (.drawbitmap 8 1 0 0 0xFFFF 0x0000) (blitting .literal 32 8 [0xB0])) =
    some [.txCmd 0x2A, .txData 0x00, .txData 0x00, .txData 0x00, .txData 0x08, .txCmd 0x2B, .txData 0x00, .txData 0x00,
      .txData 0x00, .txData 0x01, .txCmd 0x2C, .txSetData, .srcNext 0xB0,
      .txData 0xFF, .txData 0xFF, .txData 0x00, .txData 0x00, .txData 0xFF, .txData 0xFF, .txData 0xFF, .txData 0xFF,
      .txData 0x00, .txData 0x00, .txData 0x00, .txData 0x00, .txData 0x00, .txData 0x00, .txData 0x00, .txData 0x00,
      .txSetCmd] := by decide +kernel
/-- P3, INCLUSIVE: CAP = MARGIN = 8 flushes after every byte; area 16 is met. -/
theorem test_drawbitmap_p3 :
    after (fun t => (t.trace.length, (t.trace.drop 12).take 2, (t.trace.drop 29).take 1, t.violations))
      (exec (.drawbitmap 8 2 1 1 0xFFFF 0x0000) (blitting .inclusive 8 8 [0xC3, 0x3C])) =
    some (47, [.srcNext 0xC3, .txData 0xFF], [.srcNext 0x3C], []) := by decide +kernel
theorem test_drawbitmap_p3_ghost : after (fun t => (t.ghost.count, windowArea t.ghost, t.sb.len))
      (exec (.drawbitmap 8 2 1 1 0xFFFF 0x0000) (blitting .inclusive 8 8 [0xC3, 0x3C])) =
    some (16, 16, 0) := by decide +kernel
/-- T2 and T4: swapped dimensions. -/
theorem test_setrot_t2 : after (fun t => (t.trace, t.ds)) (exec (.setrot 1) State.reset) =
    some ([.txCmd 0x36, .txData 0x20], ⟨240, 320, 1, true⟩) := by decide +kernel
/-- T5: out of range is a no-op with V8. -/
theorem test_setrot_t5 :
    after (fun t => (t.trace, t.ds, t.violations)) (exec (.setrot 4) { shown with ds := ⟨240, 320, 1, true⟩ }) =
    some ([], ⟨240, 320, 1, true⟩, [.rotationSelector]) := by decide +kernel
theorem test_runseq_starts : after (fun t => (t.trace, t.busy, t.seq.phase, t.seq.tp)) (exec (.runseq 5) shown) =
    some ([], true, .runseq, 5) := by decide +kernel
theorem test_init_starts : after (fun t => (t.trace, t.busy, t.seq.phase, t.seq.tp)) (exec .init State.reset) =
    some ([], true, .initReset, 0) := by decide +kernel
/-- Q2, its first, second and last records. -/
theorem test_record_cmd : after (fun t => (t.trace, t.seq.tp)) (step (running tableS1 [] 0)) = some ([.txCmd 0x11], 2) := by
  decide +kernel
theorem test_record_delay : after (fun t => (t.trace, t.seq.tp)) (step (running tableS1 [] 2)) = some ([.clkDelay 150], 4) := by
  decide +kernel
theorem test_record_end : after (fun t => (t.trace, t.seq.tp, t.busy)) (step (running tableS1 [] 6)) = some ([], 6, false) := by
  decide +kernel
/-- Q8: `C 11`, `D AA`, then the fault, with bytes behind the table. -/
theorem test_record_q8 :
    (faulted (step (running [0x11, 0x02, 0xAA] [0xBB, 0x00] 0))).map (fun u => (u.trace, u.violations)) =
    some ([.txCmd 0x11, .txData 0xAA], [.tableOverrun]) := by decide +kernel
/-- Q7: the delay's byte lies outside the table, though TBL holds a byte there. -/
theorem test_record_q7 :
    (faulted (step (running [0x11, 0x00, 0x55] [0x96, 0x00] 2))).map (fun u => (u.trace, u.violations)) =
    some ([], [.tableOverrun]) := by decide +kernel
/-- R8 sets no bound to INIT's tables: with a table address of one bit, TP wraps, the index in the byte list does not, and
the third read is outside the list (V1). -/
theorem test_init_table_longer_than_the_space :
    let cfg := { Config.reset with tblAddrBits := 1, tableResetOff := [0x11, 0x00] }
    let s := { shown with cfg := cfg, busy := true, seq := { shown.seq with phase := .initReset, tp := 0, pos := 2 } }
    (faulted (step s)).map (fun u => (u.trace, u.violations)) = some ([], [.tableOverrun]) := by decide +kernel
/-- B6: the source is empty; the bracket stays open. -/
theorem test_drawbitmap_b6 :
    (faulted (exec (.drawbitmap 8 1 0 0 0xFFFF 0x0000) (blitting .literal 32 8 []))).map
      (fun u => (u.trace.length, u.trace.getLast?, u.violations)) =
    some (12, some .txSetData, [.sourceExhausted]) := by decide +kernel
theorem test_drawbitmap_nine_pixels :
    refusal (exec (.drawbitmap 3 3 0 0 1 0) shown) = some .bitmapNotWholeBytes := by decide +kernel
/-- P5: FILLSCREEN with no DisplayState. -/
theorem test_fillscreen_p5 :
    (faulted (exec (.fillscreen 0xFFFF) State.reset)).map (fun u => (u.trace, u.violations)) =
    some ([], [.displayStateUnset]) := by decide +kernel
/-- E2. -/
theorem test_reserved_selector :
    refusal (step { State.reset with script := [0x0B] }) = some (.reservedSelector 0x0B) := by decide +kernel
/-- E4. -/
theorem test_request_while_busy :
    refusal (exec .begindata { shown with busy := true }) = some .requestWhileBusy := by decide +kernel
/-- X13: a window of 6 pixels holding 5 is V3 at the end of the run. -/
theorem test_end_of_run_x13 :
    after (fun t => t.violations) (step { shown with ghost := ⟨false, 10, 20, 12, 21, true, 5⟩ }) =
    some [.pixelCount] := by decide +kernel
theorem test_waiting : after (fun t => decide (t = State.reset)) (step State.reset) = some true := by decide +kernel

/-! ### A witness for the hypotheses of every statement that has some -/

theorem witness_RequestRoundTrip :
    Instr.isRequest (.runseq 4294967295) = true ∧ Instr.wf 32 (.runseq 4294967295) = true ∧
      Instr.isRequest (.sendwords [0xFFFF]) = true ∧ Instr.wf 32 (.sendwords [0xFFFF]) = true := by decide
theorem witness_RecordRoundTrip :
    Instr.isRequest (.cmd 0xFF [0x00, 0x55]) = false ∧ Instr.wf 32 (.cmd 0xFF [0x00, 0x55]) = true := by decide
theorem witness_DecodedIsWellFormed :
    decodeRequest 32 [0x0A, 0xFF] = .ok (.setrot 255, []) ∧ decodeRecord [0x54, 0x00] = .ok (.cmd 0x54 [], []) :=
  ⟨rfl, rfl⟩
theorem witness_RecordLength_end : decodeRecord [0x00, 0x55] = .ok (.endRec, [0x55]) := rfl
theorem witness_RecordLength_delay : decodeRecord [0x55, 0x00] = .ok (.delay 0, []) := rfl
theorem witness_RecordLength_cmd : decodeRecord [0x56, 0x01, 0x00] = .ok (.cmd 0x56 [0x00], []) := rfl
theorem witness_ReservedSelectorsRefused :
    let s := { State.reset with script := [0x0B] }
    s.cfg.built = true ∧ s.seq.phase = .idle ∧ s.script = [0x0B] ∧ 10 < (0x0B : Byte).toNat := by decide
theorem witness_ReservedSelectorsRefused_zero :
    let s := { State.reset with script := [0x00] }
    s.cfg.built = true ∧ s.seq.phase = .idle ∧ s.script = [0x00] ∧ (0x00 : Byte).toNat = 0 := by decide
theorem witness_StepRunsRequest :
    let s := { State.reset with script := [0x0A, 0x03, 0x04] }
    s.cfg.built = true ∧ s.seq.phase = .idle ∧ decodeRequest s.cfg.tblAddrBits s.script = .ok (.setrot 3, [0x04]) :=
  ⟨by decide, rfl, rfl⟩
theorem witness_StepRunsRecord :
    (running tableS1 [] 2).cfg.built = true ∧ (running tableS1 [] 2).seq.phase = .runseq ∧
      decodeRecord (recordBytes (running tableS1 [] 2)) = .ok (.delay 150, []) := ⟨by decide, rfl, rfl⟩
theorem witness_StepRunsRecord_initReset :
    let s := { State.reset with busy := true, seq := { State.reset.seq with phase := .initReset } }
    s.cfg.built = true ∧ s.seq.phase = .initReset ∧ decodeRecord (recordBytes s) = .ok (.endRec, []) :=
  ⟨by decide, rfl, rfl⟩
theorem witness_StepRunsRecord_initWake :
    let s := { State.reset with busy := true, seq := { State.reset.seq with phase := .initWake } }
    s.cfg.built = true ∧ s.seq.phase = .initWake ∧ decodeRecord (recordBytes s) = .ok (.endRec, []) :=
  ⟨by decide, rfl, rfl⟩
theorem witness_InitContinues_load :
    let s := { State.reset with busy := true, seq := { State.reset.seq with phase := .initLoadWake } }
    s.cfg.built = true ∧ s.seq.phase = .initLoadWake := by decide
theorem witness_InitContinues_rotate :
    let s := { State.reset with busy := true, seq := { State.reset.seq with phase := .initRotate } }
    s.cfg.built = true ∧ s.seq.phase = .initRotate := by decide
/-- Each of the five ways. -/
theorem witness_IllFormedConfigRefused :
    ({ Config.reset with tblAddrBits := 0 } : Config).tblAddrBits = 0 ∧
    ({ Config.reset with nativeW := 0 } : Config).nativeW = 0 ∧ ({ Config.reset with nativeH := 0 } : Config).nativeH = 0 ∧
      ({ Config.reset with cap := 8, margin := 9 } : Config).cap < 9 ∧
      ({ Config.reset with cap := 15, margin := 7 } : Config).cap < ({ Config.reset with cap := 15, margin := 7 } : Config).batch := by
  decide
theorem witness_EndOfExecution :
    State.reset.cfg.built = true ∧ State.reset.seq.phase = .idle ∧ State.reset.script = [] := by decide
theorem witness_EndOfExecution_open :
    let s := { shown with ghost := ⟨true, 0, 0, 0, 0, true, 2⟩ }
    s.cfg.built = true ∧ s.seq.phase = .idle ∧ s.script = [] ∧ s.ghost.dmOpen = true ∧ s.ghost.armed = true ∧
      s.ghost.count ≠ windowArea s.ghost := by decide
theorem witness_BusyRefusesRequests :
    Instr.isRequest .init = true ∧ ({ shown with busy := true } : State).busy = true := by decide
/-- A state that is not busy, for every statement with that one hypothesis; with a bracket open and with none. -/
theorem witness_notBusy :
    shown.busy = false ∧ shown.ghost.dmOpen = false ∧
      ({ shown with ghost := { shown.ghost with dmOpen := true } } : State).busy = false ∧
      ({ shown with ghost := { shown.ghost with dmOpen := true } } : State).ghost.dmOpen = true := by decide
theorem witness_StreamingViolations_unarmed : shown.busy = false ∧ shown.ghost.armed = false := by decide
/-- A window of one pixel: two words overrun it, one fills it. -/
theorem witness_StreamingViolations :
    let s := { shown with ghost := ⟨false, 5, 7, 5, 7, true, 0⟩ }
    s.busy = false ∧ s.ghost.armed = true ∧ ([1, 2] : List Word) ≠ [] ∧
      windowArea s.ghost < s.ghost.count + ([1, 2] : List Word).length ∧
      s.ghost.count + ([1] : List Word).length ≤ windowArea s.ghost := by decide
theorem witness_FillscreenResult : shown.busy = false ∧ shown.ds.valid = true := by decide
theorem witness_FillscreenKeepsContracts :
    let s := { shown with ghost := ⟨false, 5, 7, 5, 7, true, 1⟩ }
    s.busy = false ∧ s.ds.valid = true ∧ s.ds.width ≠ 0 ∧ s.ds.height ≠ 0 ∧ s.ghost.dmOpen = false ∧
      (s.ghost.armed = true → s.ghost.count = windowArea s.ghost) := by decide
theorem witness_FillscreenNeedsDisplayState : State.reset.busy = false ∧ State.reset.ds.valid = false := by decide
/-- Each clause of it: a display not set, a window left short, a bracket open. -/
theorem witness_SetwinViolations :
    let s := { State.reset with ghost := ⟨true, 0, 0, 1, 1, true, 3⟩ }
    s.busy = false ∧ s.ds.valid = false ∧ s.ghost.armed = true ∧ s.ghost.count ≠ windowArea s.ghost ∧
      s.ghost.dmOpen = true := by decide
/-- The last column is inside, the next is not. -/
theorem witness_SetwinViolations_edge :
    windowInside 0 0 319 239 shown = true ∧ windowInside 0 0 320 239 shown = false ∧
      windowInside 1 0 0 239 shown = false := by decide
theorem witness_PixelColour : 7 / 8 < ([0x01] : List Byte).length := by decide
theorem witness_BlitWindowReadings :
    Config.reset.blitWindow = .literal ∧ ({ Config.reset with blitWindow := .inclusive } : Config).blitWindow = .inclusive ∧
      ({ Config.reset with blitWindow := .supplied } : Config).blitWindow = .supplied := by decide
/-- Also the hypotheses of DrawbitmapInterleaving and DrawbitmapViolations. -/
theorem witness_DrawbitmapResult :
    let s := blitting .literal 32 8 [0x81, 0x7E, 0x0F]
    s.busy = false ∧ s.cfg.built = true ∧ s.sb.words.length = s.cfg.cap ∧
      (8 : Word).toNat * (3 : Word).toNat % 8 = 0 ∧ (8 : Word).toNat * (3 : Word).toNat / 8 ≤ s.source.length := by decide
theorem witness_BufferSizeInvisible :
    let s := blitting .literal 32 8 [0xB0]
    s.cfg.built = true ∧ s.sb.words.length = s.cfg.cap ∧
      ({ s.cfg with cap := 20, margin := 8 } : Config).built = true ∧ (List.replicate 20 (0 : Word)).length = 20 ∧
      (events (exec (.drawbitmap 8 1 0 0 1 0) s)).isSome = true := by decide +kernel
theorem witness_ScratchNeverOverflows :
    let s := { shown with sb := ⟨List.replicate 32 0, 24⟩ }
    s.cfg.built = true ∧ s.sb.words.length = s.cfg.cap ∧ s.sb.len % 8 = 0 ∧ s.sb.len ≤ s.cfg.cap - s.cfg.margin := by decide
theorem witness_DrawbitmapPartialByteRefused :
    shown.busy = false ∧ (3 : Word).toNat * (3 : Word).toNat % 8 ≠ 0 := by decide
theorem witness_DrawbitmapSourceExhausted :
    let s := blitting .literal 32 8 [0xAA]
    s.busy = false ∧ (8 : Word).toNat * (2 : Word).toNat % 8 = 0 ∧
      s.source.length < (8 : Word).toNat * (2 : Word).toNat / 8 := by decide
theorem witness_SetrotResult :
    State.reset.busy = false ∧ (0 : Byte).toNat ≤ 3 ∧ (1 : Byte).toNat ≤ 3 ∧ (2 : Byte).toNat ≤ 3 ∧ (3 : Byte).toNat ≤ 3 := by
  decide
theorem witness_SetrotOutOfRange : State.reset.busy = false ∧ 3 < (4 : Byte).toNat ∧ 3 < (255 : Byte).toNat := by decide
theorem witness_SetrotHasNoHistory :
    State.reset.busy = false ∧ shown.busy = false ∧ State.reset.cfg.nativeW = shown.cfg.nativeW ∧
      State.reset.cfg.nativeH = shown.cfg.nativeH ∧ (3 : Byte).toNat ≤ 3 := by decide
theorem witness_EndStops :
    (running tableS1 [] 6).seq.phase = .runseq ∧ tableByte (running tableS1 [] 6) 0 = some 0x00 := by
  decide +kernel
theorem witness_EndInsideInit :
    ({ State.reset.seq with phase := .initReset } : Sequencer).phase = .initReset ∧
      ({ State.reset.seq with phase := .initWake } : Sequencer).phase = .initWake := by decide
theorem witness_RunseqRunsTable :
    let s := loaded tableS1 [] shown
    s.busy = false ∧ s.cfg.built = true ∧ TableAt s 0 tableS1 ∧
      parseTable tableS1 = some [.cmd 0x11 [], .delay 150, .cmd 0x29 []] ∧
      tableStop tableS1 (tableS1.length + 1) 0 = some 6 := by
  refine ⟨rfl, by decide, ?_, rfl, by decide⟩
  unfold TableAt
  decide +kernel
/-- Q8's table, with bytes of another table behind it. -/
theorem witness_RunseqMalformedFaults :
    let s := loaded [0x11, 0x02, 0xAA] [0xBB, 0x00] shown
    s.busy = false ∧ s.cfg.built = true ∧ TableAt s 0 [0x11, 0x02, 0xAA] ∧
      tableWellFormed [0x11, 0x02, 0xAA] = false := by
  unfold TableAt
  decide +kernel
/-- What is cut short of Q7, Q8 and Q9's tables. -/
theorem test_recordsBefore :
    recordsBefore 3 [0x11, 0x00, 0x55] = ([.cmd 0x11 []], [0x55]) ∧
      recordsBefore 3 [0x11, 0x02, 0xAA] = ([], [0x11, 0x02, 0xAA]) ∧
      recordsBefore 4 [0x11, 0x00, 0x29, 0x00] = ([.cmd 0x11 [], .cmd 0x29 []], []) := by decide +kernel
theorem witness_SequencesStart : shown.busy = false ∧ 5 < 2 ^ shown.cfg.tblAddrBits := by decide
theorem witness_InitCompletes :
    State.reset.busy = false ∧ State.reset.cfg.built = true ∧ State.reset.cfg.tablesOk = true ∧
      parseTable State.reset.cfg.tableResetOff = some [] ∧ parseTable State.reset.cfg.tableWakeOn = some [] :=
  ⟨rfl, by decide, by decide, rfl, rfl⟩
/-- The reset state meets the invariant and takes a step; so for the other statements about every step. -/
theorem witness_steps :
    State.reset.Inv ∧ State.reset.ghost.dmOpen = openBracket State.reset.revTrace ∧ shown.ds.valid = true ∧
      (events (step State.reset)).isSome = true ∧ (events (step shown)).isSome = true := by
  refine ⟨⟨⟨List.Pairwise.nil, fun c h => (List.not_mem_nil h).elim⟩, ?_, ?_, ?_, ?_, ?_, ?_,
    fun h => absurd h (by decide), ?_⟩, ?_, ?_, ?_, ?_⟩ <;> decide +kernel
/-- A step that runs FILLSCREEN with FILLSCREEN_BRACKET false. -/
theorem witness_ModeSwitchesOnlyFromBrackets :
    let s := { tiny false ⟨1, 1, 0, true⟩ with script := [0x08, 0x00, 0x1F] }
    (events (step s)).isSome = true ∧
      ∀ i s', fetch s = .run i s' →
        i ≠ .begindata ∧ i ≠ .enddata ∧ (∀ w h ox oy fg bg, i ≠ .drawbitmap w h ox oy fg bg) ∧
          (∀ color, i = .fillscreen color → s.cfg.fillscreenBracket = false) := by
  refine ⟨by decide +kernel, fun i s' h => ?_⟩
  have hf : fetch { tiny false ⟨1, 1, 0, true⟩ with script := [0x08, 0x00, 0x1F] } =
      .run (.fillscreen 0x001F) { tiny false ⟨1, 1, 0, true⟩ with script := [] } := by rfl
  rw [hf] at h
  cases h
  exact ⟨by simp, by simp, by simp, fun _ _ => rfl⟩
/-- A display of the native size meets the invariant of DisplayState, and a SETROT runs on it. -/
theorem witness_StepKeepsDisplayInvariant :
    let s := { shown with script := [0x0A, 0x01] }
    s.ds.valid = true ∧ s.ds.width ≠ 0 ∧ s.ds.height ≠ 0 ∧ displayAgrees s.cfg s.ds ∧
      (events (step s)).isSome = true := by
  unfold displayAgrees
  decide +kernel
theorem witness_OnlyFillscreenReadsDisplayState :
    (events (exec (.setwin 1 2 3 4) State.reset)).isSome = true := by decide +kernel
theorem witness_BusyAfterRequest :
    Instr.isRequest (.setrot 0) = true ∧ (events (exec (.setrot 0) shown)).isSome = true ∧
      Instr.isRequest .init = true ∧ (events (exec .init shown)).isSome = true := by decide +kernel
/-- With a bracket open SETROT answers a next state and V13 is recorded; SENDWORDS records none. -/
theorem witness_CommandInBracketMarked :
    let s := { shown with ghost := { shown.ghost with dmOpen := true } }
    after (fun t => t.violations) (exec (.setrot 0) s) = some [.commandInBracket] ∧
      after (fun t => t.violations) (exec (.sendwords []) s) = some [.noWindow] := by decide +kernel
/-- A window left short, for the record, SETROT, INIT's rotation and FILLSCREEN. -/
theorem witness_CommandsSettleWindow :
    let s := { shown with ghost := ⟨true, 5, 7, 5, 7, true, 0⟩ }
    let r := { s with busy := true, seq := { s.seq with phase := .initRotate } }
    s.busy = false ∧ s.ds.valid = true ∧ (3 : Byte).toNat ≤ 3 ∧ ¬ windowSettled s.ghost ∧ s.ghost.dmOpen = true ∧
      r.cfg.built = true ∧ r.seq.phase = .initRotate := by
  unfold windowSettled
  decide
/-- At rest, and the state of X13 before the end, which meets the hypotheses and is not. -/
theorem witness_AtRestIsTheEnd :
    shown.cfg.built = true ∧ shown.seq.phase = .idle ∧ shown.busy = false ∧ shown.sb.len = 0 ∧ shown.script = [] ∧
      shown.AtRest ∧ ¬ State.AtRest { shown with ghost := ⟨false, 10, 20, 12, 21, true, 5⟩ } := by
  unfold State.AtRest windowSettled
  decide

end Sys2Proof.Tests
end

/-! Scope (spec/00_scope.md): the byte split, the configurations that are no DISPCORE, and the bound on the scratch buffer. -/

namespace Sys2Proof.Machine

/-! ### The byte split (R12, R85) -/

@[simp] theorem hi8_toNat (v : Word) : (hi8 v).toNat = v.toNat / 256 := by
  have hv := v.isLt
  simp only [hi8, BitVec.extractLsb'_toNat, Nat.shiftRight_eq_div_pow]
  omega

@[simp] theorem lo8_toNat (v : Word) : (lo8 v).toNat = v.toNat % 256 := by
  simp [lo8]

@[simp] theorem joinWord_toNat (h l : Byte) : (joinWord h l).toNat = h.toNat * 256 + l.toNat := by
  have hl := l.isLt
  rw [joinWord, BitVec.toNat_append, ← Nat.shiftLeft_add_eq_or_of_lt hl, Nat.shiftLeft_eq]

theorem hi8_lo8_toNat (v : Word) : (hi8 v).toNat * 256 + (lo8 v).toNat = v.toNat := by
  rw [hi8_toNat, lo8_toNat, Nat.div_add_mod']

@[simp] theorem joinWord_hi8_lo8 (v : Word) : joinWord (hi8 v) (lo8 v) = v :=
  BitVec.eq_of_toNat_eq (by rw [joinWord_toNat, hi8_lo8_toNat])

/-- Settles O8: the quotient and the remainder by 256, put together again. -/
theorem byteSplit : Obligations.ByteSplit :=
  ⟨fun v => ⟨hi8_lo8_toNat v, joinWord_hi8_lo8 v⟩, fun _ => rfl⟩

/-! ### Configurations (R8, R10, R189) -/

theorem built_iff (cfg : Config) :
    cfg.built = true ↔
      cfg.nativeW ≠ 0 ∧ cfg.nativeH ≠ 0 ∧ cfg.margin ≤ cfg.cap ∧ cfg.batch ≤ cfg.cap ∧ 0 < cfg.tblAddrBits := by
  simp [Config.built, and_assoc]

/-- Whatever is in progress, nothing is fetched on a configuration that is no DISPCORE (V10). -/
theorem step_of_not_built {s : State} (h : ¬ s.cfg.built = true) : step s = .refused .illFormedConfig := by
  rw [step, fetch, if_neg h]

/-- Settles O12: each of the five ways fails one clause of `Config.built`. -/
theorem illFormedConfigRefused : Obligations.IllFormedConfigRefused := by
  intro s hill
  apply step_of_not_built
  rw [built_iff]
  rintro ⟨hw, hh, hmargin, hbatch, hbits⟩
  rcases hill with h | h | h | h | h
  · exact hw h
  · exact hh h
  · omega
  · omega
  · omega

/-! ### The scratch buffer's bound (R10, R29, R163) -/

@[simp] theorem expandByte_sb_len (s : State) : (expandByte s).sb.len = s.sb.len + 8 := by
  obtain ⟨words, he, -⟩ := expandByte_frame s
  rw [he]

/-- After the flush check of a turn SB is empty where the turn passed the threshold (R152), else it holds 8 words more. -/
theorem blitByte_sb_len (b : Byte) (s : State) :
    (blitByte b s).sb.len = if s.cfg.cap - s.cfg.margin < s.sb.len + 8 then 0 else s.sb.len + 8 := by
  obtain ⟨words, he, -⟩ := expandByte_frame { s with bl := { s.bl with byte := b } }
  simp only [blitByte, he, flushCheck]
  split
  · rw [flush_eq]
  · rfl

@[simp] theorem blitByte_words_length (b : Byte) (s : State) :
    (blitByte b s).sb.words.length = s.sb.words.length := by
  obtain ⟨ws, words, len, pos, hl, he⟩ := blitByte_frame b s
  rw [he]
  exact hl

/-- A fill of SB below the flush threshold has room for one more source byte in the batch: both are multiples of 8 (R163). -/
theorem add_eight_le_batch {cfg : Config} {len : Nat} (h8 : len % 8 = 0) (hle : len ≤ cfg.cap - cfg.margin) :
    len + 8 ≤ cfg.batch := by
  rw [batch_eq]
  omega

/-- Settles O30: the batch bounds SB before the flush check, the check's own threshold bounds it after. -/
theorem scratchNeverOverflows : Obligations.ScratchNeverOverflows := by
  intro b s hbuilt hwords h8 hle
  obtain ⟨-, -, -, hbatch, -⟩ := (built_iff s.cfg).mp hbuilt
  obtain ⟨hmod, hthreshold⟩ : (blitByte b s).sb.len % 8 = 0 ∧ (blitByte b s).sb.len ≤ s.cfg.cap - s.cfg.margin := by
    rw [blitByte_sb_len]
    split <;> omega
  exact ⟨expandByte_sb_len _, add_eight_le_batch h8 hle, hbatch, hmod, hthreshold,
    (blitByte_words_length b s).trans hwords⟩

end Sys2Proof.Machine

/-! State (spec/10_state.md): what every step keeps, who writes DisplayState, when BUSY falls, and how requests are
accepted. -/

namespace Sys2Proof.Machine

/-! ### The latest mode switch (R37) -/

/-- Events that are no mode switch leave the latest one what it was. -/
theorem openBracket_append_of_isBlit {evs : List Event} (h : ∀ e ∈ evs, e.isBlit = true) (es : List Event) :
    openBracket (evs ++ es) = openBracket es := by
  induction evs with
  | nil => rfl
  | cons e evs ih =>
    have he := h e List.mem_cons_self
    have ih := ih fun e' he' => h e' (List.mem_cons_of_mem _ he')
    cases e with
    | txData b => exact ih
    | srcNext b => exact ih
    | txCmd b => cases he
    | txSetData => cases he
    | txSetCmd => cases he
    | clkDelay ms => cases he

/-! ### What every operation keeps -/

/-- What no operation of DISPCORE breaks: the parameters (R40) and TBL (R51) are the same, SB has as many words (R29), no
violation is recorded twice (R204), and DM_OPEN stays what the trace says (R37). -/
structure Keeps (s t : State) : Prop where
  cfg : t.cfg = s.cfg
  tbl : t.tbl = s.tbl
  tables : t.tables = s.tables
  words : t.sb.words.length = s.sb.words.length
  marks : s.violations.Nodup → t.violations.Nodup
  bracket : s.ghost.dmOpen = openBracket s.revTrace → t.ghost.dmOpen = openBracket t.revTrace

theorem Keeps.trans {s t u : State} (h : Keeps s t) (k : Keeps t u) : Keeps s u where
  cfg := k.cfg.trans h.cfg
  tbl := k.tbl.trans h.tbl
  tables := k.tables.trans h.tables
  words := k.words.trans h.words
  marks := k.marks ∘ h.marks
  bracket := k.bracket ∘ h.bracket

/-- `Keeps` says nothing of DisplayState, BUSY, the sequencer, the latches and the host's requests. -/
theorem keeps_control (ds : DisplayState) (busy : Bool) (seq : Sequencer) (lat : Latches) (script : List Byte)
    (s : State) : Keeps s { s with ds := ds, busy := busy, seq := seq, lat := lat, script := script } :=
  ⟨rfl, rfl, rfl, rfl, id, id⟩

/-- What an operation inside one request leaves alone beside that: the sequencer and DisplayState. -/
structure OpFrame (s t : State) : Prop extends Keeps s t where
  seq : t.seq = s.seq
  ds : t.ds = s.ds

theorem OpFrame.trans {s t u : State} (h : OpFrame s t) (k : OpFrame t u) : OpFrame s u where
  toKeeps := h.toKeeps.trans k.toKeeps
  seq := k.seq.trans h.seq
  ds := k.ds.trans h.ds

theorem opFrame_mark (v : Violation) (s : State) : OpFrame s (mark v s) :=
  ⟨⟨by simp, by simp, by simp, by simp, mark_nodup, by simp⟩, by simp, by simp⟩

theorem opFrame_markIf (c : Bool) (v : Violation) (s : State) : OpFrame s (markIf c v s) :=
  ⟨⟨by simp, by simp, by simp, by simp, markIf_nodup, by simp⟩, by simp, by simp⟩

theorem opFrame_checkNoBracket (s : State) : OpFrame s (checkNoBracket s) := opFrame_markIf _ _ s

theorem opFrame_txCmd (b : Byte) (s : State) : OpFrame s (txCmd b s) :=
  ⟨⟨by simp, by simp, by simp, by simp, fun h => by rw [txCmd_violations]; exact markIf_nodup h,
    by simp [openBracket]⟩, by simp, by simp⟩

theorem opFrame_txData (b : Byte) (s : State) : OpFrame s (txData b s) := ⟨⟨rfl, rfl, rfl, rfl, id, id⟩, rfl, rfl⟩

theorem opFrame_clkDelay (ms : Byte) (s : State) : OpFrame s (clkDelay ms s) := ⟨⟨rfl, rfl, rfl, rfl, id, id⟩, rfl, rfl⟩

theorem opFrame_txSetData (s : State) : OpFrame s (txSetData s) := ⟨⟨rfl, rfl, rfl, rfl, id, fun _ => rfl⟩, rfl, rfl⟩

theorem opFrame_txSetCmd (s : State) : OpFrame s (txSetCmd s) := ⟨⟨rfl, rfl, rfl, rfl, id, fun _ => rfl⟩, rfl, rfl⟩

/-- Loading the latches, the blitter's registers and SB_LEN. -/
theorem opFrame_registers (lat : Latches) (bl : Blitter) (len : Nat) (s : State) :
    OpFrame s { s with lat := lat, bl := bl, sb := { s.sb with len := len } } :=
  ⟨⟨rfl, rfl, rfl, rfl, id, id⟩, rfl, rfl⟩

theorem opFrame_setWindow (x1 y1 x2 y2 : Word) (s : State) : OpFrame s (setWindow x1 y1 x2 y2 s) :=
  ⟨⟨by simp, by simp, by simp, by simp, fun h => by rw [setWindow_violations]; exact markIf_nodup (markIf_nodup h),
    by simp [setWindow_revTrace, windowEvents, openBracket]⟩, by simp, by simp⟩

/-- Sending `n` pixels: `evs` holds no mode switch. -/
theorem opFrame_of_pixels {evs : List Event} {n : Nat} {s t : State} (hev : ∀ e ∈ evs, e.isBlit = true)
    (hwords : t.sb.words.length = s.sb.words.length)
    (ht : t = { s with
      sb := t.sb, bl := t.bl, fc := t.fc, source := t.source, revTrace := evs.reverse ++ s.revTrace,
      ghost := s.ghost.pixels n, violations := pixelMarks n s }) : OpFrame s t := by
  have hrev : ∀ e ∈ evs.reverse, e.isBlit = true := fun e he => hev e (List.mem_reverse.mp he)
  refine ⟨⟨?_, ?_, ?_, hwords, ?_, ?_⟩, ?_, ?_⟩ <;> rw [ht]
  · exact markIf_nodup
  · simp [openBracket_append_of_isBlit hrev]

theorem opFrame_sendWords (ws : List Word) (s : State) : OpFrame s (sendWords ws s) := by
  rw [sendWords_eq]
  exact opFrame_of_pixels (fun _ => wordsEvents_isBlit) rfl rfl

theorem opFrame_fillColor (color : Word) (count : DWord) (s : State) : OpFrame s (fillColor color count s) := by
  rw [fillColor_eq]
  exact opFrame_of_pixels (fun _ => wordsEvents_isBlit) rfl rfl

theorem opFrame_flush (s : State) : OpFrame s (flush s) := by
  rw [flush_eq]
  exact opFrame_of_pixels (fun _ => wordsEvents_isBlit) rfl rfl

theorem BlitStep.opFrame {evs : List Event} {n : Nat} {s t : State} (h : BlitStep evs n s t) : OpFrame s t := by
  obtain ⟨hev, -, hwords, ht⟩ := h
  refine opFrame_of_pixels (n := n) hev hwords ?_
  rw [ht]

theorem opFrame_beginBitmap (w h ox oy fg bg : Word) (s : State) : OpFrame s (beginBitmap w h ox oy fg bg s) :=
  (opFrame_checkNoBracket s).trans <| (opFrame_markIf _ _ _).trans <| (opFrame_registers _ _ _ _).trans <|
    (opFrame_setWindow _ _ _ _ _).trans <| (opFrame_txSetData _).trans <| opFrame_registers _ _ _ _

theorem keeps_rotate (r : BitVec 2) (s : State) : Keeps s (rotate r s) :=
  ((opFrame_txCmd _ s).trans (opFrame_txData _ _)).toKeeps.trans (keeps_control _ _ _ _ _ _)

/-! ### The requests that complete in one step (R36, R80) -/

/-- A request that completes at once: BUSY was 0 and is 0 again, the sequencer is untouched, SB is empty if it was. -/
structure Completes (s t : State) : Prop extends Keeps s t where
  accepted : s.busy = false
  busy : t.busy = false
  seq : t.seq = s.seq
  sb_empty : s.sb.len = 0 → t.sb.len = 0

/-- What a request does between `accept` and `complete` is all it does. -/
theorem Keeps.completes {s u : State} (hb : s.busy = false) (h : Keeps { s with busy := true } u)
    (hseq : u.seq = s.seq) (hsb : s.sb.len = 0 → u.sb.len = 0) : Completes s { u with busy := false } where
  toKeeps := (keeps_control _ true _ _ _ s).trans <| h.trans (keeps_control _ _ _ _ _ u)
  accepted := hb
  busy := rfl
  seq := hseq
  sb_empty := hsb

theorem OpFrame.completes {s u : State} (hb : s.busy = false) (h : OpFrame { s with busy := true } u)
    (hsb : s.sb.len = 0 → u.sb.len = 0) :
    Completes s { u with busy := false } ∧ ({ u with busy := false } : State).ds = s.ds :=
  ⟨h.toKeeps.completes hb h.seq hsb, h.ds⟩

theorem execBegindata_completes {s t : State} (h : execBegindata s = .next t) : Completes s t ∧ t.ds = s.ds := by
  obtain ⟨hb, rfl⟩ := execBegindata_next h
  exact ((opFrame_markIf _ _ _).trans (opFrame_txSetData _)).completes hb (by simp)

theorem execEnddata_completes {s t : State} (h : execEnddata s = .next t) : Completes s t ∧ t.ds = s.ds := by
  obtain ⟨hb, rfl⟩ := execEnddata_next h
  exact ((opFrame_markIf _ _ _).trans (opFrame_txSetCmd _)).completes hb (by simp)

theorem execSendwords_completes {ws : List Word} {s t : State} (h : execSendwords ws s = .next t) :
    Completes s t ∧ t.ds = s.ds := by
  obtain ⟨hb, rfl⟩ := execSendwords_next h
  exact ((opFrame_markIf _ _ _).trans (opFrame_sendWords ws _)).completes hb (by simp [sendWords_eq])

theorem execFillcolor_completes {color : Word} {count : DWord} {s t : State}
    (h : execFillcolor color count s = .next t) : Completes s t ∧ t.ds = s.ds := by
  obtain ⟨hb, rfl⟩ := execFillcolor_next h
  exact ((opFrame_markIf _ _ _).trans <| (opFrame_markIf _ _ _).trans (opFrame_fillColor color count _)).completes hb
    (by simp [fillColor_eq])

theorem execSetwin_completes {x1 y1 x2 y2 : Word} {s t : State} (h : execSetwin x1 y1 x2 y2 s = .next t) :
    Completes s t ∧ t.ds = s.ds := by
  obtain ⟨hb, rfl⟩ := execSetwin_next h
  exact ((opFrame_checkNoBracket _).trans (opFrame_setWindow x1 y1 x2 y2 _)).completes hb (by simp)

theorem execFillscreen_completes {color : Word} {s t : State} (h : execFillscreen color s = .next t) :
    Completes s t ∧ t.ds = s.ds := by
  obtain ⟨hb, -, u, rfl, hplain, hbracket⟩ := execFillscreen_next h
  have hwindow := (opFrame_checkNoBracket { s with busy := true }).trans
    (opFrame_setWindow 0 0 (s.ds.width - 1) (s.ds.height - 1) _)
  cases hf : s.cfg.fillscreenBracket with
  | false =>
    rw [hplain hf]
    exact (hwindow.trans (opFrame_fillColor _ _ _)).completes hb (by simp [fillColor_eq])
  | true =>
    rw [hbracket hf]
    exact (hwindow.trans <| (opFrame_txSetData _).trans <| (opFrame_fillColor _ _ _).trans
      (opFrame_txSetCmd _)).completes hb (by simp [fillColor_eq])

/-- DRAWBITMAP's last flush empties SB, whatever its loop left there (R152). -/
theorem execDrawbitmap_completes {w h ox oy fg bg : Word} {s t : State}
    (hn : execDrawbitmap w h ox oy fg bg s = .next t) : Completes s t ∧ t.ds = s.ds := by
  obtain ⟨hb, -, evs, n, u, hloop, -, rfl⟩ := execDrawbitmap_next hn
  exact ((opFrame_beginBitmap w h ox oy fg bg _).trans <| hloop.opFrame.trans <| (opFrame_flush u).trans
    (opFrame_txSetCmd _)).completes hb (by simp [flush_eq])

/-- SETROT writes DisplayState for a selector of 0 to 3 only (R180, R183). -/
theorem execSetrot_completes {r : Byte} {s t : State} (h : execSetrot r s = .next t) :
    Completes s t ∧ (t.ds = s.ds ∨ r.toNat ≤ 3 ∧ t.ds = (rotate (r.setWidth 2) s).ds) := by
  obtain ⟨hb, rfl⟩ := execSetrot_next h
  have hlatch : OpFrame { s with busy := true } { s with busy := true, lat := { s.lat with r := r } } :=
    opFrame_registers _ _ _ _
  have hmark := hlatch.trans (opFrame_checkNoBracket _)
  split
  · rename_i hr
    exact ⟨(hmark.toKeeps.trans (keeps_rotate _ _)).completes hb (by simp) (by simp), .inr ⟨hr, by simp [rotate]⟩⟩
  · obtain ⟨hc, hds⟩ := (hmark.trans (opFrame_mark .rotationSelector _)).completes hb (by simp)
    exact ⟨hc, .inl hds⟩

/-! ### Everything an instruction can do when it answers a next state -/

/-- The outcome of `i` from `s`: a request done at once, a table run started, or a record run. -/
inductive ExecCase (s t : State) : Instr → Prop where
  /-- The eight requests that complete in their own step (log 8); SETROT alone writes DisplayState (R24). -/
  | done {i : Instr} (notInit : i ≠ .init) (notRunseq : ∀ table, i ≠ .runseq table) (completes : Completes s t)
      (ds : t.ds = s.ds ∨ ∃ r, i = .setrot r ∧ r.toNat ≤ 3 ∧ t.ds = (rotate (r.setWidth 2) s).ds) : ExecCase s t i
  | init (accepted : s.busy = false) (eq : t = startTable .initReset 0 (checkNoBracket { s with busy := true })) :
      ExecCase s t .init
  | runseq (table : Nat) (accepted : s.busy = false)
      (eq : t = startTable .runseq table
        (checkNoBracket { s with busy := true, lat := { s.lat with table := table } })) : ExecCase s t (.runseq table)
  | endRec (eq : t = stopTable { s with seq := { s.seq with cmd := endMark } }) : ExecCase s t .endRec
  | delay (ms : Byte) (eq : t = advanceTp 2 (clkDelay ms (loadRecord delayMark ms s))) : ExecCase s t (.delay ms)
  | cmd (c : Byte) (params : List Byte)
      (eq : t = advanceTp (2 + params.length)
        (sendParams params (txCmd c (loadRecord c (BitVec.ofNat 8 params.length) s)))) : ExecCase s t (.cmd c params)

theorem exec_cases {i : Instr} {s t : State} (h : exec i s = .next t) : ExecCase s t i := by
  have hdone : i ≠ .init → (∀ table, i ≠ .runseq table) → Completes s t ∧ t.ds = s.ds → ExecCase s t i :=
    fun hinit hrunseq hc => .done hinit hrunseq hc.1 (.inl hc.2)
  cases i with
  | init =>
    obtain ⟨hb, rfl⟩ := execInit_next h
    exact .init hb rfl
  | runseq table =>
    obtain ⟨hb, rfl⟩ := execRunseq_next h
    exact .runseq table hb rfl
  | setwin x1 y1 x2 y2 => exact hdone nofun nofun (execSetwin_completes h)
  | begindata => exact hdone nofun nofun (execBegindata_completes h)
  | enddata => exact hdone nofun nofun (execEnddata_completes h)
  | sendwords ws => exact hdone nofun nofun (execSendwords_completes h)
  | fillcolor color count => exact hdone nofun nofun (execFillcolor_completes h)
  | fillscreen color => exact hdone nofun nofun (execFillscreen_completes h)
  | drawbitmap w h' ox oy fg bg => exact hdone nofun nofun (execDrawbitmap_completes h)
  | setrot r =>
    obtain ⟨hc, hds⟩ := execSetrot_completes h
    exact .done nofun nofun hc (hds.imp id fun hrot => ⟨r, rfl, hrot⟩)
  | endRec =>
    cases h
    exact .endRec rfl
  | delay ms =>
    cases h
    exact .delay ms rfl
  | cmd c params =>
    cases h
    exact .cmd c params rfl

/-! ### What every step keeps -/

theorem keeps_startTable (p : Phase) (table : Nat) (s : State) : Keeps s (startTable p table s) :=
  keeps_control _ _ _ _ _ s

theorem keeps_advanceTp (k : Nat) (s : State) : Keeps s (advanceTp k s) := keeps_control _ _ _ _ _ s

theorem keeps_loadRecord (c a : Byte) (s : State) : Keeps s (loadRecord c a s) := keeps_control _ _ _ _ _ s

theorem keeps_sendParams (params : List Byte) (s : State) : Keeps s (sendParams params s) := by
  have hdata : ∀ e ∈ (params.map Event.txData).reverse, e.isBlit = true := by
    intro e he
    obtain ⟨b, -, rfl⟩ := List.mem_map.mp (List.mem_reverse.mp he)
    rfl
  rw [sendParams_eq]
  exact ⟨rfl, rfl, rfl, rfl, id, fun h => by simp [openBracket_append_of_isBlit hdata, h]⟩

theorem exec_keeps {i : Instr} {s t : State} (h : exec i s = .next t) : Keeps s t := by
  cases exec_cases h with
  | done _ _ hc _ => exact hc.toKeeps
  | init _ ht =>
    rw [ht]
    exact (keeps_control _ _ _ _ _ s).trans <| (opFrame_checkNoBracket _).toKeeps.trans (keeps_startTable _ _ _)
  | runseq table _ ht =>
    rw [ht]
    exact (keeps_control _ _ _ _ _ s).trans <| (opFrame_checkNoBracket _).toKeeps.trans (keeps_startTable _ _ _)
  | endRec ht =>
    rw [ht]
    exact keeps_control _ _ _ _ _ s
  | delay ms ht =>
    rw [ht]
    exact (keeps_loadRecord _ _ s).trans <| (opFrame_clkDelay ms _).toKeeps.trans (keeps_advanceTp _ _)
  | cmd c params ht =>
    rw [ht]
    exact (keeps_loadRecord _ _ s).trans <| (opFrame_txCmd c _).toKeeps.trans <|
      (keeps_sendParams params _).trans (keeps_advanceTp _ _)

theorem keeps_initRotate (s : State) : Keeps s (initRotate s) :=
  (keeps_control _ _ _ _ _ s).trans <| (keeps_rotate _ _).trans (keeps_control _ _ _ _ _ _)

theorem keeps_endOfExecution (s : State) : Keeps s (endOfExecution s) :=
  (opFrame_markIf _ _ s).toKeeps.trans (opFrame_markIf _ _ _).toKeeps

theorem step_keeps {s t : State} (h : step s = .next t) : Keeps s t := by
  obtain ⟨-, hstep⟩ := step_cases h
  cases hstep with
  | ended _ _ ht => exact ht ▸ keeps_endOfExecution s
  | request _ i rest _ hrun => exact (keeps_control _ _ _ _ _ s).trans (exec_keeps hrun)
  | record _ i rest _ hrun => exact exec_keeps hrun
  | loadWake _ ht => exact ht ▸ keeps_startTable _ _ s
  | rotate _ ht => exact ht ▸ keeps_initRotate s

/-- Settles O47: `Keeps` carries the ghost bracket through every step. -/
theorem stepKeepsBracketGhost : Obligations.StepKeepsBracketGhost :=
  fun _ _ hbracket hstep => (step_keeps hstep).bracket hbracket

/-- Settles O50: no operation writes the parameters, TBL or the tables' extents. -/
theorem tablesAndParametersFixed : Obligations.TablesAndParametersFixed := by
  intro s t hstep
  have hk := step_keeps hstep
  exact ⟨hk.cfg, hk.tables, fun a => by rw [hk.tbl]⟩

/-! ### The records the decoder reads (R86, R91) -/

/-- The bytes a record was decoded from, for each of the three kinds. -/
theorem decodeRecord_cases {bs rest : List Byte} {i : Instr} (h : decodeRecord bs = .ok (i, rest)) :
    (i = .endRec ∧ bs = endMark :: rest) ∨
    (∃ ms, i = .delay ms ∧ bs = delayMark :: ms :: rest) ∨
    (∃ c a params, i = .cmd c params ∧ c ≠ endMark ∧ c ≠ delayMark ∧ a.toNat = params.length ∧
      bs = c :: a :: (params ++ rest)) := by
  unfold decodeRecord at h
  cases bs with
  | nil => cases h
  | cons c bs =>
    by_cases hend : c = endMark
    · simp only [hend, if_true] at h
      cases h
      exact .inl ⟨rfl, by rw [hend]⟩
    · cases bs with
      | nil => simp [hend] at h
      | cons a tail =>
        by_cases hdelay : c = delayMark
        · simp only [if_neg hend, if_pos hdelay] at h
          cases h
          exact .inr (.inl ⟨a, rfl, by rw [hdelay]⟩)
        · simp only [if_neg hend, if_neg hdelay] at h
          split at h
          · rename_i hlen
            cases h
            exact .inr (.inr ⟨c, a, _, rfl, hend, hdelay, by simp [hlen], by rw [List.take_append_drop]⟩)
          · cases h

/-! ### Who writes DisplayState (R24) -/

/-- The rotation's DisplayState is made of the parameters alone (R182). -/
theorem rotate_ds_congr (r : BitVec 2) {s s' : State} (h : s.cfg = s'.cfg) : (rotate r s).ds = (rotate r s').ds := by
  simp [rotate, h]

theorem exec_ds {i : Instr} {s t : State} (h : exec i s = .next t) :
    t.ds = s.ds ∨ ∃ r, i = .setrot r ∧ r.toNat ≤ 3 ∧ t.ds = (rotate (r.setWidth 2) s).ds := by
  cases exec_cases h with
  | done _ _ _ hds => exact hds
  | init _ ht => exact .inl (by simp [ht])
  | runseq table _ ht => exact .inl (by simp [ht])
  | endRec ht => exact .inl (by simp [ht])
  | delay ms ht => exact .inl (by simp [ht])
  | cmd c params ht => exact .inl (by simp [ht, sendParams_eq])

/-- A step leaves DisplayState alone or rotates it: by a SETROT of 0 to 3, or where INIT ends. -/
theorem step_ds {s t : State} (h : step s = .next t) :
    t.ds = s.ds ∨ ∃ q, t.ds = (rotate q s).ds ∧
      (s.seq.phase = .initRotate ∨ s.seq.phase = .idle ∧
        ∃ r rest, decodeRequest s.cfg.tblAddrBits s.script = .ok (.setrot r, rest) ∧ r.toNat ≤ 3) := by
  obtain ⟨-, hstep⟩ := step_cases h
  cases hstep with
  | ended _ _ ht => exact .inl (by simp [ht, endOfExecution])
  | request hphase i rest hdecode hrun =>
    refine (exec_ds hrun).imp id fun ⟨r, hi, hr, hds⟩ => ?_
    exact ⟨r.setWidth 2, hds.trans (rotate_ds_congr _ rfl), .inr ⟨hphase, r, rest, hi ▸ hdecode, hr⟩⟩
  | record hphase i rest hdecode hrun =>
    refine .inl ((exec_ds hrun).resolve_right ?_)
    rintro ⟨r, rfl, -⟩
    simpa using decodeRecord_cases hdecode
  | loadWake _ ht => exact .inl (by simp [ht])
  | rotate hphase ht => exact .inr ⟨s.cfg.initRotation, by rw [ht]; exact rotate_ds_congr _ rfl, .inl hphase⟩

/-- Settles O48: `step_ds` names both writers. -/
theorem onlyRotationWritesDisplayState : Obligations.OnlyRotationWritesDisplayState := by
  intro s t hstep
  exact (step_ds hstep).imp id fun ⟨_, _, hwriter⟩ => hwriter

/-- Settles O49: a rotation, the only writer, sets DS_VALID. -/
theorem displayStateStaysValid : Obligations.DisplayStateStaysValid := by
  intro s t hvalid hstep
  rcases step_ds hstep with hds | ⟨q, hds, -⟩
  · rw [hds]
    exact hvalid
  · obtain ⟨-, -, hq, -⟩ := rotate_ds q s
    rw [hds]
    exact hq

/-- Settles O55: a rotation loads the dimensions of the table of R181, positive since the configuration is built. -/
theorem stepKeepsDisplayInvariant : Obligations.StepKeepsDisplayInvariant := by
  intro s t hinv hstep
  rw [(step_keeps hstep).cfg]
  rcases step_ds hstep with hds | ⟨q, hds, -⟩ <;> rw [hds]
  · exact hinv
  · intro _
    obtain ⟨hagrees, -, -, hpos⟩ := rotate_ds q s
    obtain ⟨hw, hh, -⟩ := (built_iff s.cfg).mp (step_cases hstep).1
    exact ⟨(hpos hw hh).1, (hpos hw hh).2, hagrees⟩

/-! ### BUSY and the sequencer (R27, R36) -/

/-- Settles O54: RUNSEQ and INIT start a table run, the other requests complete. -/
theorem busyAfterRequest : Obligations.BusyAfterRequest := by
  intro i s t hi h
  cases exec_cases h with
  | done hinit hrunseq hc _ =>
    refine ⟨?_, fun _ _ => ⟨hc.busy, hc.seq⟩⟩
    rintro (rfl | ⟨table, rfl⟩)
    · exact absurd rfl hinit
    · exact absurd rfl (hrunseq table)
  | init _ ht => exact ⟨fun _ => by simp [ht], fun hinit => absurd rfl hinit⟩
  | runseq table _ ht => exact ⟨fun _ => by simp [ht], fun _ hrunseq => absurd rfl (hrunseq table)⟩
  | endRec _ => cases hi
  | delay ms _ => cases hi
  | cmd c params _ => cases hi

/-- The part of `State.Inv` that is about BUSY and TP. -/
structure SeqInv (s : State) : Prop where
  busy_iff : s.busy = decide (s.seq.phase ≠ .idle)
  tp_lt : s.seq.tp < 2 ^ s.cfg.tblAddrBits
  tp_runseq : s.seq.phase = .runseq → s.seq.tp = (s.lat.table + s.seq.pos) % 2 ^ s.cfg.tblAddrBits
  tp_init : s.seq.phase = .initReset ∨ s.seq.phase = .initWake → s.seq.tp = s.seq.pos % 2 ^ s.cfg.tblAddrBits

theorem State.Inv.seqInv {s : State} (h : s.Inv) : SeqInv s := ⟨h.busy_iff, h.tp_lt, h.tp_pos.1, h.tp_pos.2⟩

/-- With nothing in progress TP has only to be a table address. -/
theorem SeqInv.of_idle {s : State} (hphase : s.seq.phase = .idle) (hbusy : s.busy = false)
    (htp : s.seq.tp < 2 ^ s.cfg.tblAddrBits) : SeqInv s := by
  constructor <;> simp [hphase, hbusy, htp]

/-- A request is accepted with nothing in progress only. -/
theorem SeqInv.idle {s : State} (h : SeqInv s) (hb : s.busy = false) : s.seq.phase = .idle := by
  simpa [hb] using h.busy_iff.symm

theorem SeqInv.startTable {p : Phase} {table : Nat} {s : State} (hp : p ≠ .idle) (hbusy : s.busy = true)
    (hlatch : p = .runseq → s.lat.table = table) (hinit : p = .initReset ∨ p = .initWake → table = 0) :
    SeqInv (startTable p table s) where
  busy_iff := by simp [hbusy, hp]
  tp_lt := Nat.mod_lt _ (Nat.two_pow_pos _)
  tp_runseq h := by simp [tableAddr, hlatch h]
  tp_init h := by simp [tableAddr, hinit h]

theorem SeqInv.advanceTp {s : State} (h : SeqInv s) (k : Nat) : SeqInv (advanceTp k s) where
  busy_iff := h.busy_iff
  tp_lt := Nat.mod_lt _ (Nat.two_pow_pos _)
  tp_runseq hp := by simp [tableAddr, h.tp_runseq hp, Nat.add_assoc]
  tp_init hp := by simp [tableAddr, h.tp_init hp]

theorem afterEnd_ne_table_run (p : Phase) :
    p.afterEnd ≠ .runseq ∧ p.afterEnd ≠ .initReset ∧ p.afterEnd ≠ .initWake := by
  cases p <;> decide

/-- After END no table is being run, so TP has only to be a table address. -/
theorem SeqInv.stopTable {s : State} (h : SeqInv s) : SeqInv (stopTable s) where
  busy_iff := by
    simp only [Machine.stopTable, h.busy_iff]
    cases s.seq.phase <;> rfl
  tp_lt := h.tp_lt
  tp_runseq hp := absurd hp (afterEnd_ne_table_run _).1
  tp_init hp := absurd hp (not_or.mpr (afterEnd_ne_table_run _).2)

/-- `SeqInv` speaks of the parameters, BUSY, the phase, TP with its index, and the table latch. -/
theorem SeqInv.congr {s t : State} (h : SeqInv s) (hcfg : t.cfg = s.cfg) (hbusy : t.busy = s.busy)
    (hphase : t.seq.phase = s.seq.phase) (htp : t.seq.tp = s.seq.tp) (hpos : t.seq.pos = s.seq.pos)
    (htable : t.lat.table = s.lat.table) : SeqInv t := by
  obtain ⟨hb, hlt, hrunseq, hinit⟩ := h
  rw [← hcfg, ← htp] at hlt
  rw [← hcfg, ← hphase, ← htp, ← hpos, ← htable] at hrunseq
  rw [← hcfg, ← hphase, ← htp, ← hpos] at hinit
  exact ⟨by rw [hbusy, hb, hphase], hlt, hrunseq, hinit⟩

theorem exec_seqInv {i : Instr} {s t : State} (hs : SeqInv s) (h : exec i s = .next t) : SeqInv t := by
  cases exec_cases h with
  | done _ _ hc _ =>
    refine .of_idle ?_ hc.busy ?_ <;> rw [hc.seq]
    · exact hs.idle hc.accepted
    · rw [hc.cfg]
      exact hs.tp_lt
  | init _ ht => exact ht ▸ .startTable (by simp) (by simp) (by simp) (fun _ => rfl)
  | runseq table _ ht => exact ht ▸ .startTable (by simp) (by simp) (by simp) (by simp)
  | endRec ht =>
    have hload : SeqInv { s with seq := { s.seq with cmd := endMark } } := hs.congr rfl rfl rfl rfl rfl rfl
    exact ht ▸ hload.stopTable
  | delay ms ht =>
    have hrun : SeqInv (clkDelay ms (loadRecord delayMark ms s)) := hs.congr rfl rfl rfl rfl rfl rfl
    exact ht ▸ hrun.advanceTp 2
  | cmd c params ht =>
    have hrun : SeqInv (sendParams params (txCmd c (loadRecord c (BitVec.ofNat 8 params.length) s))) := by
      rw [sendParams_eq]
      apply hs.congr <;> simp
    exact ht ▸ hrun.advanceTp _

theorem step_seqInv {s t : State} (hs : SeqInv s) (h : step s = .next t) : SeqInv t := by
  obtain ⟨-, hstep⟩ := step_cases h
  cases hstep with
  | ended _ _ ht =>
    rw [ht]
    apply hs.congr <;> simp [endOfExecution]
  | request _ i rest _ hrun =>
    have hfetched : SeqInv { s with script := rest } := hs.congr rfl rfl rfl rfl rfl rfl
    exact exec_seqInv hfetched hrun
  | record _ i rest _ hrun => exact exec_seqInv hs hrun
  | loadWake hphase ht =>
    have hbusy : s.busy = true := by simp [hs.busy_iff, hphase]
    exact ht ▸ .startTable (by simp) hbusy (by simp) (fun _ => rfl)
  | rotate _ ht =>
    have htp : (initRotate s).seq.tp = s.seq.tp := by simp [initRotate]
    rw [ht]
    exact .of_idle rfl rfl (by simpa [htp] using hs.tp_lt)

/-! ### SB between requests (R76) -/

theorem exec_sb_empty {i : Instr} {s t : State} (hs : s.sb.len = 0) (h : exec i s = .next t) : t.sb.len = 0 := by
  cases exec_cases h with
  | done _ _ hc _ => exact hc.sb_empty hs
  | init _ ht => simpa [ht] using hs
  | runseq table _ ht => simpa [ht] using hs
  | endRec ht => simpa [ht] using hs
  | delay ms ht => simpa [ht] using hs
  | cmd c params ht => simpa [ht, sendParams_eq] using hs

theorem step_sb_empty {s t : State} (hs : s.sb.len = 0) (h : step s = .next t) : t.sb.len = 0 := by
  obtain ⟨-, hstep⟩ := step_cases h
  cases hstep with
  | ended _ _ ht => simpa [ht, endOfExecution] using hs
  | request _ i rest _ hrun => exact exec_sb_empty (s := { s with script := rest }) hs hrun
  | record _ i rest _ hrun => exact exec_sb_empty hs hrun
  | loadWake _ ht => simpa [ht] using hs
  | rotate _ ht => simpa [ht] using hs

/-- Settles O46: `Keeps` for TBL, SB's words and the marks, `SeqInv` for BUSY and TP, O55 for DisplayState. -/
theorem stepKeepsInvariant : Obligations.StepKeepsInvariant := by
  intro s t hs hstep
  have hk := step_keeps hstep
  have hseq := step_seqInv hs.seqInv hstep
  have hds := stepKeepsDisplayInvariant s t
    (fun hv => ⟨(hs.ds_pos hv).1, (hs.ds_pos hv).2, hs.ds_agrees hv⟩) hstep
  exact {
    tbl_wf := by rw [hk.cfg, hk.tbl]; exact hs.tbl_wf
    sb_cap := by rw [hk.words, hk.cfg, hs.sb_cap]
    sb_empty := step_sb_empty hs.sb_empty hstep
    busy_iff := hseq.busy_iff
    tp_lt := hseq.tp_lt
    tp_pos := ⟨hseq.tp_runseq, hseq.tp_init⟩
    ds_pos := fun hv => ⟨(hds hv).1, (hds hv).2.1⟩
    ds_agrees := fun hv => (hds hv).2.2
    marks_nodup := hk.marks hs.marks_nodup }

/-- Settles O44: the fields of `State.reset`. -/
theorem resetValues : Obligations.ResetValues := ⟨rfl, rfl, rfl, rfl, rfl, rfl, rfl, rfl⟩

/-- Settles O45: TBL is empty, SB is CAP words of 0, nothing is in progress, DS_VALID is 0. -/
theorem invariantAtReset : Obligations.InvariantAtReset where
  tbl_wf := reset_tbl_wf
  sb_cap := List.length_replicate
  sb_empty := rfl
  busy_iff := rfl
  tp_lt := Nat.two_pow_pos _
  tp_pos := ⟨fun hp => (nomatch hp), fun hp => (nomatch hp)⟩
  ds_pos hv := (nomatch hv)
  ds_agrees hv := (nomatch hv)
  marks_nodup := List.nodup_nil

/-! ### How requests are accepted -/

theorem accept_of_not_busy {s : State} (h : s.busy = false) (k : State → Result) :
    accept s k = k { s with busy := true } := by
  simp [accept, h]

/-- Settles O14: every request begins with `accept`, which tests BUSY before anything else. -/
theorem busyRefusesRequests : Obligations.BusyRefusesRequests := by
  intro i s hi hb
  cases i with
  | endRec => cases hi
  | delay ms => cases hi
  | cmd c params => cases hi
  | _ => exact if_pos hb

/-- Settles O22: the marks recorded before the fault add no event. -/
theorem fillscreenNeedsDisplayState : Obligations.FillscreenNeedsDisplayState := by
  intro color s hb hv
  refine ⟨mark .displayStateUnset (checkNoBracket { s with busy := true }), ?_, by simp [State.trace], by simp⟩
  rw [exec, execFillscreen, accept_of_not_busy hb]
  simp [hv]

/-- Settles O42: `startTable` after `accept`, with no event and no mark but V13's. -/
theorem sequencesStart : Obligations.SequencesStart := by
  constructor
  · intro table s hb htable
    have hrun : execRunseq table s = .next _ := accept_of_not_busy hb _
    refine ⟨_, hrun, ?_⟩
    apply State.eq_of_fields <;> simp [tableAddr, Nat.mod_eq_of_lt htable]
  · intro s hb
    have hrun : execInit s = .next _ := accept_of_not_busy hb _
    refine ⟨_, hrun, ?_⟩
    apply State.eq_of_fields <;> simp [tableAddr]

end Sys2Proof.Machine

/-! State (spec/10_state.md, spec/44_rotation_mapper.md): a table run to its END, and INIT's run of its two tables. -/

namespace Sys2Proof.Machine

/-! ### Reading the table being run (R51, R111) -/

/-- `bs` are the bytes of the table's byte list from TP on. -/
def ReadsBytes (bs : List Byte) (s : State) : Prop := ∀ k, tableByte s k = bs[k]?

theorem tableBytes_of_reads {bs : List Byte} {s : State} (h : ReadsBytes bs s) (n k : Nat) :
    tableBytes s n k = (bs.drop k).take n := by
  induction n generalizing k with
  | zero => rfl
  | succ n ih =>
    rw [tableBytes, h k]
    cases hk : bs[k]? with
    | none => simp [List.getElem?_eq_none_iff.mp hk]
    | some b =>
      obtain ⟨hlt, hb⟩ := List.getElem?_eq_some_iff.mp hk
      rw [List.drop_eq_getElem_cons hlt, hb, List.take_succ_cons, ← ih (k + 1)]

/-- What the sequencer reads for the record at TP decodes to what the table's bytes decode to there. -/
theorem decodeRecord_recordBytes {bs rest : List Byte} {i : Instr} {s : State} (h : ReadsBytes bs s)
    (hd : decodeRecord bs = .ok (i, rest)) : decodeRecord (recordBytes s) = .ok (i, []) := by
  have h0 := h 0
  have h1 := h 1
  rcases decodeRecord_cases hd with ⟨rfl, rfl⟩ | ⟨ms, rfl, rfl⟩ | ⟨c, a, params, rfl, hend, hdelay, hlen, rfl⟩
  · simp [recordBytes, h0, decodeRecord]
  · have hne : delayMark ≠ endMark := by decide
    simp [recordBytes, h0, h1, decodeRecord, hne]
  · simp [recordBytes, h0, h1, decodeRecord, hend, hdelay, hlen, tableBytes_of_reads h]

/-! ### Running records -/

/-- The bytes a record takes (R91); the width of a table address is no part of a record. -/
def recordSize (r : Instr) : Nat := Laws.EncodedLength.bytes 0 r

/-- `t` is `s` after the records `rs` were run, one a step: their trace (R115), TP and its index past them, and nothing
else changed but the sequencer's working registers, the ghost window and the fault mark. -/
structure RecordsRun (rs : List Instr) (s t : State) : Prop where
  revTrace : t.revTrace = (tableEvents rs).reverse ++ s.revTrace
  phase : t.seq.phase = s.seq.phase
  tp : t.seq.tp = tableAddr s.cfg s.seq.tp (rs.map recordSize).sum
  pos : t.seq.pos = s.seq.pos + (rs.map recordSize).sum
  dmOpen : t.ghost.dmOpen = s.ghost.dmOpen
  frame : t = { s with revTrace := t.revTrace, seq := t.seq, ghost := t.ghost, violations := t.violations }

section
variable {rs : List Instr} {s t : State} (h : RecordsRun rs s t)
include h

theorem RecordsRun.cfg : t.cfg = s.cfg := by rw [h.frame]
theorem RecordsRun.busy : t.busy = s.busy := by rw [h.frame]
theorem RecordsRun.tbl : t.tbl = s.tbl := by rw [h.frame]
theorem RecordsRun.tables : t.tables = s.tables := by rw [h.frame]
theorem RecordsRun.lat : t.lat = s.lat := by rw [h.frame]

/-- The byte `k` places after the advanced TP is the byte that far past the records from the old TP (R13). -/
theorem RecordsRun.tableByte (k : Nat) : tableByte t k = tableByte s ((rs.map recordSize).sum + k) := by
  simp [Machine.tableByte, h.cfg, h.tbl, h.tables, h.lat, h.phase, h.tp, h.pos, tableAddr, Nat.add_assoc]

theorem RecordsRun.trans {rs' : List Instr} {u : State} (k : RecordsRun rs' t u) : RecordsRun (rs ++ rs') s u where
  revTrace := by simp [k.revTrace, h.revTrace, tableEvents]
  phase := k.phase.trans h.phase
  tp := by simp [k.tp, h.tp, h.cfg, tableAddr, Nat.add_assoc]
  pos := by simp [k.pos, h.pos, Nat.add_assoc]
  dmOpen := k.dmOpen.trans h.dmOpen
  frame := by rw [k.frame, h.frame]

end

/-- TP inside the address space is its own value modulo 2^TBL_ADDR_BITS. -/
theorem RecordsRun.refl {s : State} (htp : s.seq.tp < 2 ^ s.cfg.tblAddrBits) : RecordsRun [] s s :=
  ⟨rfl, rfl, (Nat.mod_eq_of_lt htp).symm, rfl, rfl, rfl⟩

/-- A record but END runs in one step. -/
theorem exec_recordsRun {bs rest : List Byte} {r : Instr} (hd : decodeRecord bs = .ok (r, rest)) (hr : r ≠ .endRec)
    (s : State) : ∃ t, exec r s = .next t ∧ RecordsRun [r] s t := by
  rcases decodeRecord_cases hd with ⟨rfl, -⟩ | ⟨ms, rfl, -⟩ | ⟨c, a, params, rfl, -⟩
  · exact absurd rfl hr
  · exact ⟨_, rfl, rfl, rfl, rfl, rfl, rfl, rfl⟩
  · refine ⟨_, rfl, ?_⟩
    rw [sendParams_eq]
    constructor
    case frame => apply State.eq_of_fields <;> simp
    all_goals simp [tableEvents, recordEvents, recordSize, Laws.EncodedLength.bytes]

/-- The decoder takes `recordSize` bytes (R91). -/
theorem rest_eq_drop {bs rest : List Byte} {r : Instr} (hd : decodeRecord bs = .ok (r, rest)) :
    rest = bs.drop (recordSize r) := by
  rcases decodeRecord_cases hd with ⟨rfl, rfl⟩ | ⟨ms, rfl, rfl⟩ | ⟨c, a, params, rfl, -, -, -, rfl⟩
  · rfl
  · rfl
  · simp [recordSize, Laws.EncodedLength.bytes, Nat.add_comm 2]

/-- After a record TP stands at the bytes that follow it. -/
theorem RecordsRun.reads {bs rest : List Byte} {r : Instr} {s t : State} (h : RecordsRun [r] s t)
    (hd : decodeRecord bs = .ok (r, rest)) (hs : ReadsBytes bs s) : ReadsBytes rest t := by
  intro k
  rw [h.tableByte, hs, rest_eq_drop hd, List.getElem?_drop]
  rfl

/-! ### A whole table (R111, R115) -/

/-- The parse of R90 as the sequencer makes it: END, or a record and the parse of what follows. -/
theorem parseRecords_cases {fuel : Nat} {bs : List Byte} {rs : List Instr} (h : parseRecords (fuel + 1) bs = some rs) :
    (rs = [] ∧ ∃ rest, decodeRecord bs = .ok (.endRec, rest)) ∨
    ∃ r rest rs', rs = r :: rs' ∧ r ≠ .endRec ∧ decodeRecord bs = .ok (r, rest) ∧ parseRecords fuel rest = some rs' := by
  unfold parseRecords at h
  split at h
  · cases h
  · rename_i rest hd
    cases h
    exact .inl ⟨rfl, rest, hd⟩
  · rename_i r rest hr hd
    split at h
    · cases h
    · rename_i rs' hrest
      cases h
      exact .inr ⟨r, rest, rs', rfl, hr, hd, hrest⟩

/-- While a table is run a step executes the record at TP. -/
theorem step_of_record {s : State} {i : Instr} {rest : List Byte} (hb : s.cfg.built = true)
    (hp : s.seq.phase.runsTable = true) (hd : decodeRecord (recordBytes s) = .ok (i, rest)) : step s = exec i s := by
  have hfetch : fetchRecord s = .run i s := by simp [fetchRecord, hd]
  rw [step, fetch, if_pos hb]
  cases hphase : s.seq.phase <;> simp [hphase, Phase.runsTable] at hp <;> simp [hfetch]

/-- The records of a table before its END, one a step. -/
theorem runSteps_records {fuel : Nat} {bs : List Byte} {rs : List Instr} {s : State} (hb : s.cfg.built = true)
    (hp : s.seq.phase.runsTable = true) (htp : s.seq.tp < 2 ^ s.cfg.tblAddrBits) (hs : ReadsBytes bs s)
    (h : parseRecords fuel bs = some rs) :
    ∃ u, runSteps rs.length s = .next u ∧ RecordsRun rs s u ∧ decodeRecord (recordBytes u) = .ok (.endRec, []) := by
  induction fuel generalizing bs rs s with
  | zero => cases h
  | succ fuel ih =>
    rcases parseRecords_cases h with ⟨rfl, rest, hd⟩ | ⟨r, rest, rs', rfl, hr, hd, hrest⟩
    · exact ⟨s, rfl, .refl htp, decodeRecord_recordBytes hs hd⟩
    · obtain ⟨t, hexec, hrun⟩ := exec_recordsRun hd hr s
      have hstep := (step_of_record hb hp (decodeRecord_recordBytes hs hd)).trans hexec
      have htp' : t.seq.tp < 2 ^ t.cfg.tblAddrBits := by
        rw [hrun.tp, hrun.cfg]
        exact Nat.mod_lt _ (Nat.two_pow_pos _)
      obtain ⟨u, hsteps, hruns, hend⟩ :=
        ih (by rw [hrun.cfg, hb]) (by rw [hrun.phase, hp]) htp' (hrun.reads hd hs) hrest
      exact ⟨u, (runSteps_succ _ hstep).trans hsteps, hrun.trans hruns, hend⟩

/-- `t` is `s` after a table of the records `rs` was run to its END, where TP stays (R112). -/
structure TableRun (rs : List Instr) (s t : State) : Prop where
  revTrace : t.revTrace = (tableEvents rs).reverse ++ s.revTrace
  phase : t.seq.phase = s.seq.phase.afterEnd
  busy : t.busy = (s.busy && decide (s.seq.phase.afterEnd ≠ .idle))
  tp : t.seq.tp = tableAddr s.cfg s.seq.tp (rs.map recordSize).sum
  dmOpen : t.ghost.dmOpen = s.ghost.dmOpen
  frame : t = { s with
    revTrace := t.revTrace, seq := t.seq, busy := t.busy, ghost := t.ghost, violations := t.violations }

theorem RecordsRun.tableRun {rs : List Instr} {s u : State} (h : RecordsRun rs s u) :
    TableRun rs s (stopTable { u with seq := { u.seq with cmd := endMark } }) where
  revTrace := h.revTrace
  phase := by simp [h.phase]
  busy := by simp [stopTable, h.busy, h.phase]
  tp := h.tp
  dmOpen := h.dmOpen
  frame := by
    rw [h.frame]
    rfl

/-- A table run to its END: its records, then one step in which the sequencer stops. -/
theorem runSteps_table {T : List Byte} {rs : List Instr} {s : State} (hb : s.cfg.built = true)
    (hp : s.seq.phase.runsTable = true) (htp : s.seq.tp < 2 ^ s.cfg.tblAddrBits) (hs : ReadsBytes T s)
    (h : parseTable T = some rs) : ∃ t, runSteps (rs.length + 1) s = .next t ∧ TableRun rs s t := by
  obtain ⟨u, hsteps, hruns, hend⟩ := runSteps_records hb hp htp hs h
  refine ⟨_, ?_, hruns.tableRun⟩
  rw [runSteps_add _ 1 hsteps, runSteps, step_of_record (by rw [hruns.cfg, hb]) (by rw [hruns.phase, hp]) hend]
  rfl

/-! ### INIT (R42, R186) -/

theorem step_of_initLoadWake {s : State} (hb : s.cfg.built = true) (hp : s.seq.phase = .initLoadWake) :
    step s = .next (initLoadWake s) := by
  simp [step, fetch, hb, hp]

theorem step_of_initRotate {s : State} (hb : s.cfg.built = true) (hp : s.seq.phase = .initRotate) :
    step s = .next (initRotate s) := by
  simp [step, fetch, hb, hp]

/-- Both of INIT's tables are read from index 0 of their byte lists (log 6). -/
theorem readsBytes_initReset (s : State) : ReadsBytes s.cfg.tableResetOff (startTable .initReset 0 s) := by
  intro k
  simp [tableByte]

theorem readsBytes_initWake (s : State) : ReadsBytes s.cfg.tableWakeOn (initLoadWake s) := by
  intro k
  simp [tableByte, initLoadWake]

theorem rotMap_ctrl (w h : Word) (r : BitVec 2) : (rotMap w h r).1 = rotCtrl r := by
  unfold rotMap
  split <;> rfl

theorem initRotate_revTrace (s : State) :
    (initRotate s).revTrace = .txData (rotCtrl s.cfg.initRotation) :: .txCmd s.cfg.cmdMemAccessCtrl :: s.revTrace := by
  simp [initRotate, rotate, rotMap_ctrl]

theorem initRotate_ghost (s : State) : (initRotate s).ghost = { s.ghost with armed := false } := by
  simp [initRotate, rotate]

/-- From its acceptance INIT runs its first table, turns to its second, runs it, and rotates: `t` is the state before the
rotation. -/
theorem runSteps_init {rs1 rs2 : List Instr} {s : State} (hb : s.cfg.built = true) (hp : s.seq.phase = .initReset)
    (htp : s.seq.tp < 2 ^ s.cfg.tblAddrBits) (hs : ReadsBytes s.cfg.tableResetOff s)
    (h1 : parseTable s.cfg.tableResetOff = some rs1) (h2 : parseTable s.cfg.tableWakeOn = some rs2) :
    ∃ t u, TableRun rs1 s t ∧ TableRun rs2 (initLoadWake t) u ∧
      runSteps (rs1.length + rs2.length + 4) s = .next (initRotate u) := by
  obtain ⟨t, hsteps1, ht⟩ := runSteps_table hb (by simp [hp, Phase.runsTable]) htp hs h1
  have htcfg : t.cfg = s.cfg := by rw [ht.frame]
  have hload := step_of_initLoadWake (by rw [htcfg, hb]) (by simp [ht.phase, hp, Phase.afterEnd])
  obtain ⟨u, hsteps2, hu⟩ := runSteps_table (s := initLoadWake t) (T := t.cfg.tableWakeOn) (by simp [htcfg, hb]) rfl
    (Nat.mod_lt _ (Nat.two_pow_pos _)) (readsBytes_initWake t) (by rw [htcfg, h2])
  have hucfg : u.cfg = s.cfg := by
    rw [hu.frame]
    exact htcfg
  have hrotate := step_of_initRotate (by rw [hucfg, hb]) hu.phase
  refine ⟨t, u, ht, hu, ?_⟩
  have hcount : rs1.length + rs2.length + 4 = rs1.length + 1 + (rs2.length + 1 + 1 + 1) := by omega
  rw [hcount, runSteps_add _ _ hsteps1, runSteps_succ _ hload, runSteps_add _ 1 hsteps2, runSteps, hrotate]
  rfl

/-- Settles O43: `runSteps_init` from the state that accepted INIT. -/
theorem initCompletes : Obligations.InitCompletes := by
  intro rs1 rs2 s hbusy hb _ h1 h2
  have haccept : execInit s = .next _ := accept_of_not_busy hbusy _
  obtain ⟨t, u, ht, hu, hsteps⟩ := runSteps_init (s := startTable .initReset 0 (checkNoBracket { s with busy := true }))
    (by simpa using hb) rfl (Nat.mod_lt _ (Nat.two_pow_pos _)) (readsBytes_initReset _) (by simpa using h1)
    (by simpa using h2)
  obtain ⟨hagrees, hrot, hvalid, -⟩ := rotate_ds u.cfg.initRotation
    { u with lat := { u.lat with r := u.cfg.initRotation.setWidth 8 } }
  have hframe : u = { s with
      revTrace := u.revTrace, seq := u.seq, busy := u.busy, ghost := u.ghost, violations := u.violations } := by
    rw [hu.frame, ht.frame]
    apply State.eq_of_fields <;> simp
  have hcfg : u.cfg = s.cfg := by rw [hframe]
  have hdmOpen : u.ghost.dmOpen = s.ghost.dmOpen := by rw [hu.dmOpen, initLoadWake_ghost, ht.dmOpen]; simp
  refine ⟨_, initRotate u, haccept, hsteps, ?_, hvalid, ?_, ?_, rfl, rfl, ?_⟩
  · simp [State.trace, initRotate_revTrace, hu.revTrace, ht.revTrace, hcfg]
  · exact hrot.trans (by rw [hcfg])
  · rw [← hcfg]
    exact hagrees
  · exact ⟨by rw [initRotate_sb, hframe], by rw [initRotate_ghost, hdmOpen], by rw [initRotate_ghost],
      by rw [initRotate_tbl, hframe], by rw [initRotate_tables, hframe], by rw [initRotate_source, hframe],
      by rw [initRotate_script, hframe]⟩

end Sys2Proof.Machine

/-! Memory (spec/20_memory.md): what an observer sees of DRAWBITMAP whatever the scratch buffer, and which operations
switch the bus mode. -/

namespace Sys2Proof.Machine

/-! ### DRAWBITMAP's trace as an observer sees it (R17, R53, R167) -/

theorem transport_append (es es' : List Event) : transport (es ++ es') = transport es ++ transport es' := by
  simp [transport]

theorem transport_wordsEvents (ws : List Word) : transport (wordsEvents ws) = wordsEvents ws := by
  refine List.filter_eq_self.mpr fun e he => ?_
  obtain ⟨w, -, hw⟩ := List.mem_flatMap.mp he
  simp only [wordEvents, List.mem_cons, List.not_mem_nil, or_false] at hw
  rcases hw with rfl | rfl <;> rfl

/-- The batches are not visible to the Transport: it sees the words of the source bytes in order. -/
theorem transport_blitTail (fg bg : Word) (k : Nat) (held bytes : List Byte) :
    transport (blitTail fg bg k held bytes) = wordsEvents ((held ++ bytes).flatMap (byteColors fg bg)) := by
  induction bytes generalizing held with
  | nil => simp [blitTail, transport_wordsEvents]
  | cons b bytes ih =>
    have hsrc : ∀ es, transport (.srcNext b :: es) = transport es := fun _ => rfl
    rw [blitTail, hsrc]
    split
    · rw [transport_append, transport_wordsEvents, ih]
      simp [wordsEvents]
    · rw [ih]
      simp

/-- Nor to the source: it is asked for its bytes in order, once each. -/
theorem sourceCalls_blitTail (fg bg : Word) (k : Nat) (held bytes : List Byte) :
    sourceCalls (blitTail fg bg k held bytes) = bytes := by
  induction bytes generalizing held with
  | nil => exact sourceCalls_wordsEvents _
  | cons b bytes ih =>
    have hsrc : ∀ es, sourceCalls (.srcNext b :: es) = b :: sourceCalls es := fun _ => rfl
    rw [blitTail, hsrc]
    split
    · rw [sourceCalls_append, sourceCalls_wordsEvents, ih, List.nil_append]
    · rw [ih]

/-! ### DRAWBITMAP run to its end (R160) -/

/-- SETWIN's marks depend on DisplayState, the ghost window and the violations recorded before. -/
theorem setWindow_violations_congr (x1 y1 x2 y2 : Word) {s t : State} (hds : s.ds = t.ds) (hghost : s.ghost = t.ghost)
    (hv : s.violations = t.violations) :
    (setWindow x1 y1 x2 y2 s).violations = (setWindow x1 y1 x2 y2 t).violations := by
  rw [setWindow_violations, setWindow_violations]
  simp only [settleWindow, windowInside, markIf_ghost, hds, hghost]
  exact markIf_violations_congr (markIf_violations_congr hv)

section
variable (w h ox oy fg bg : Word) (s : State)

@[simp] theorem beginBitmap_source : (beginBitmap w h ox oy fg bg s).source = s.source := by
  simp [beginBitmap]

@[simp] theorem beginBitmap_bl : (beginBitmap w h ox oy fg bg s).bl =
    { s.bl with total := pixelProduct w h, done := 0, fg := fg, bg := bg } := by
  simp [beginBitmap]

theorem beginBitmap_revTrace :
    let win := blitWindow s.cfg w h ox oy
    (beginBitmap w h ox oy fg bg s).revTrace =
      .txSetData :: ((windowEvents s.cfg win.1 win.2.1 win.2.2.1 win.2.2.2).reverse ++ s.revTrace) := by
  simp [beginBitmap, setWindow_revTrace]

theorem beginBitmap_ghost :
    let win := blitWindow s.cfg w h ox oy
    (beginBitmap w h ox oy fg bg s).ghost =
      { dmOpen := true, x1 := win.1, y1 := win.2.1, x2 := win.2.2.1, y2 := win.2.2.2, armed := true, count := 0 } := by
  simp [beginBitmap]

/-- DRAWBITMAP's marks before its loop: V13, V2 for the destination rectangle, and those of SETWIN. -/
theorem beginBitmap_violations :
    let win := blitWindow s.cfg w h ox oy
    (beginBitmap w h ox oy fg bg s).violations = (setWindow win.1 win.2.1 win.2.2.1 win.2.2.2
      (markIf (!bitmapInside w h ox oy s) .windowOutside (checkNoBracket s))).violations := by
  rw [beginBitmap]
  simp only [txSetData_violations]
  exact setWindow_violations_congr _ _ _ _ rfl rfl rfl

/-- Before its first turn DRAWBITMAP's loop holds no source byte (R160, R163). -/
theorem blitAt_beginBitmap (hb : s.cfg.built = true) (hwords : s.sb.words.length = s.cfg.cap) :
    BlitAt [] (beginBitmap w h ox oy fg bg s) := by
  have hframe := opFrame_beginBitmap w h ox oy fg bg s
  obtain ⟨-, -, hmargin, hbatch, -⟩ := (built_iff s.cfg).mp hb
  have hpos : 0 < s.cfg.batch / 8 := by
    rw [batch_eq]
    omega
  rw [← hframe.cfg] at hwords hmargin hbatch hpos
  exact ⟨hframe.words.trans hwords, hmargin, hbatch, rfl, rfl, hpos⟩

end

/-- A DRAWBITMAP of whole bytes whose source holds them answers a next state (R160): after what `beginBitmap` does, the
batches of the source bytes, SB empty, the bracket closed. -/
theorem execDrawbitmap_ok {w h ox oy fg bg : Word} {s : State} (hbusy : s.busy = false) (hb : s.cfg.built = true)
    (hwords : s.sb.words.length = s.cfg.cap) (h8 : (pixelProduct w h).toNat % 8 = 0)
    (hsrc : (pixelProduct w h).toNat / 8 ≤ s.source.length) :
    let n := (pixelProduct w h).toNat / 8
    let s0 := beginBitmap w h ox oy fg bg { s with busy := true }
    ∃ words byte pos, exec (.drawbitmap w h ox oy fg bg) s = .next { s0 with
      busy := false
      sb := { words := words, len := 0 }
      bl := { s0.bl with done := s0.bl.total, byte := byte }
      source := s.source.drop n
      revTrace := .txSetCmd :: ((blitTail fg bg (s.cfg.batch / 8) [] (s.source.take n)).reverse ++ s0.revTrace)
      fc := { s0.fc with pos := pos }
      ghost := { s0.ghost with dmOpen := false, count := (pixelProduct w h).toNat }
      violations := pixelMarks (pixelProduct w h).toNat s0 } := by
  intro n s0
  have hpixels : 8 * n = (pixelProduct w h).toNat := by omega
  have hlen : (s.source.take n).length = n := by simpa using hsrc
  have hcfg : s0.cfg = s.cfg := (opFrame_beginBitmap w h ox oy fg bg _).cfg
  obtain ⟨u, words, byte, pos, hloop, -, hflush⟩ := blitLoop_ok (s := s0) (s.source.take n)
    (rest := s.source.drop n) (blitAt_beginBitmap w h ox oy fg bg _ hb hwords) (by simp [s0])
    (by simp [s0, hlen, hpixels])
  refine ⟨words, byte, pos, ?_⟩
  have hexec : exec (.drawbitmap w h ox oy fg bg) s = complete (txSetCmd (flush u)) := by
    rw [hlen] at hloop
    rw [exec, execDrawbitmap_eq, accept_of_not_busy hbusy, if_pos h8, hloop]
  rw [hexec, complete, hflush, hcfg, hlen]
  congr 1
  apply State.eq_of_fields <;> simp [hpixels, Ghost.pixels, s0, beginBitmap_ghost]

/-- What an observer sees of such a DRAWBITMAP (R17, R167), and what is left of the source. -/
theorem execDrawbitmap_observed {w h ox oy fg bg : Word} {s : State} (hbusy : s.busy = false) (hb : s.cfg.built = true)
    (hwords : s.sb.words.length = s.cfg.cap) (h8 : (pixelProduct w h).toNat % 8 = 0)
    (hsrc : (pixelProduct w h).toNat / 8 ≤ s.source.length) :
    let n := (pixelProduct w h).toNat / 8
    let win := blitWindow s.cfg w h ox oy
    ∃ t, exec (.drawbitmap w h ox oy fg bg) s = .next t ∧
      t.trace = s.trace ++ windowEvents s.cfg win.1 win.2.1 win.2.2.1 win.2.2.2 ++ [.txSetData] ++
        blitTail fg bg (s.cfg.batch / 8) [] (s.source.take n) ++ [.txSetCmd] ∧
      t.source = s.source.drop n ∧ t.ds = s.ds ∧
      t.violations = pixelMarks (pixelProduct w h).toNat (beginBitmap w h ox oy fg bg { s with busy := true }) := by
  intro n win
  obtain ⟨words, byte, pos, hexec⟩ := execDrawbitmap_ok hbusy hb hwords h8 hsrc
  refine ⟨_, hexec, ?_, rfl, ?_, rfl⟩
  · simp [State.trace, beginBitmap_revTrace, n, win]
  · exact (opFrame_beginBitmap w h ox oy fg bg { s with busy := true }).ds

/-- Settles O29: the batches that CAP and MARGIN make are visible neither to the Transport nor to the source. -/
theorem bufferSizeInvisible : Obligations.BufferSizeInvisible := by
  intro w h ox oy fg bg s cap margin sb hb hwords hb' hwords' t ht
  obtain ⟨hbusy, h8, _, _, _, -, hloop, -⟩ := execDrawbitmap_next ht
  have hsrc := blitLoop_ok_source _ hloop (by simp; omega)
  rw [beginBitmap_source] at hsrc
  obtain ⟨t', ht', htrace, hsource, hds, hmarks⟩ :=
    execDrawbitmap_observed (ox := ox) (oy := oy) (fg := fg) (bg := bg) hbusy hb hwords h8 hsrc
  obtain rfl : t = t' := by simpa [ht] using ht'
  obtain ⟨u, hu, hutrace, husource, huds, humarks⟩ :=
    execDrawbitmap_observed (s := { s with cfg := { s.cfg with cap := cap, margin := margin }, sb := sb })
      (ox := ox) (oy := oy) (fg := fg) (bg := bg) hbusy hb' hwords' h8 hsrc
  refine ⟨u, hu, ?_, ?_, husource.trans hsource.symm, huds.trans hds.symm, ?_⟩
  · rw [hutrace, htrace]
    simp only [transport_append, transport_blitTail]
    rfl
  · rw [hutrace, htrace]
    simp only [sourceCalls_append, sourceCalls_blitTail]
    rfl
  · rw [humarks, hmarks]
    refine pixelMarks_congr _ (by rw [beginBitmap_ghost, beginBitmap_ghost]; rfl) ?_
    rw [beginBitmap_violations, beginBitmap_violations]
    exact setWindow_violations_congr _ _ _ _ (by simp) (by simp) (markIf_violations_congr (markIf_violations_congr rfl))

/-! ### What issues no mode switch (R59) -/

/-- From `s` to `t` events were issued, none of them a mode switch (R17, R59). -/
def NoModeSwitch (s t : State) : Prop := ∃ evs, t.trace = s.trace ++ evs ∧ .txSetData ∉ evs ∧ .txSetCmd ∉ evs

theorem NoModeSwitch.trans {s t u : State} (h : NoModeSwitch s t) (k : NoModeSwitch t u) : NoModeSwitch s u := by
  obtain ⟨es, hes, hdata, hcmd⟩ := h
  obtain ⟨es', hes', hdata', hcmd'⟩ := k
  exact ⟨es ++ es', by rw [hes', hes, List.append_assoc], by simp [hdata, hdata'], by simp [hcmd, hcmd']⟩

theorem noModeSwitch_of_trace_eq {s t : State} (h : t.trace = s.trace) : NoModeSwitch s t :=
  ⟨[], by simp [h], by simp, by simp⟩

/-- Pixels, and what else DRAWBITMAP's loop may issue, are no mode switch. -/
theorem noModeSwitch_of_isBlit {evs : List Event} {s t : State} (hev : ∀ e ∈ evs, e.isBlit = true)
    (ht : t.revTrace = evs.reverse ++ s.revTrace) : NoModeSwitch s t :=
  ⟨evs, by simp [State.trace, ht], fun he => (nomatch hev _ he), fun he => (nomatch hev _ he)⟩

theorem noModeSwitch_txCmd (b : Byte) (s : State) : NoModeSwitch s (txCmd b s) :=
  ⟨[.txCmd b], by simp [State.trace], by simp, by simp⟩

theorem noModeSwitch_clkDelay (ms : Byte) (s : State) : NoModeSwitch s (clkDelay ms s) :=
  ⟨[.clkDelay ms], by simp [State.trace], by simp, by simp⟩

theorem noModeSwitch_setWindow (x1 y1 x2 y2 : Word) (s : State) : NoModeSwitch s (setWindow x1 y1 x2 y2 s) :=
  ⟨windowEvents s.cfg x1 y1 x2 y2, setWindow_trace x1 y1 x2 y2 s, by simp [windowEvents], by simp [windowEvents]⟩

theorem noModeSwitch_sendWords (ws : List Word) (s : State) : NoModeSwitch s (sendWords ws s) :=
  noModeSwitch_of_isBlit (fun _ => wordsEvents_isBlit) (by rw [sendWords_eq])

theorem noModeSwitch_fillColor (color : Word) (count : DWord) (s : State) : NoModeSwitch s (fillColor color count s) :=
  noModeSwitch_of_isBlit (fun _ => wordsEvents_isBlit) (by rw [fillColor_eq])

theorem noModeSwitch_sendParams (params : List Byte) (s : State) : NoModeSwitch s (sendParams params s) :=
  ⟨params.map .txData, by simp [State.trace, sendParams_eq], by simp, by simp⟩

theorem noModeSwitch_rotate (r : BitVec 2) (s : State) : NoModeSwitch s (rotate r s) :=
  ⟨[.txCmd s.cfg.cmdMemAccessCtrl, .txData (rotMap s.cfg.nativeW s.cfg.nativeH r).1], by simp [State.trace, rotate],
    by simp, by simp⟩

/-- `NoModeSwitch` speaks of the traces alone. -/
theorem NoModeSwitch.congr {s t s' t' : State} (h : NoModeSwitch s t) (hs : s'.revTrace = s.revTrace)
    (ht : t'.revTrace = t.revTrace) : NoModeSwitch s' t' := by
  unfold NoModeSwitch State.trace
  rw [hs, ht]
  exact h

theorem execFillscreen_noModeSwitch {color : Word} {s t : State} (hbracket : s.cfg.fillscreenBracket = false)
    (hrun : execFillscreen color s = .next t) : NoModeSwitch s t := by
  obtain ⟨-, -, u, hu, hplain, -⟩ := execFillscreen_next hrun
  have hwindow := noModeSwitch_setWindow 0 0 (s.ds.width - 1) (s.ds.height - 1) (checkNoBracket { s with busy := true })
  rw [← hu] at hwindow
  rw [hplain hbracket]
  exact (hwindow.trans (noModeSwitch_fillColor color (pixelProduct s.ds.width s.ds.height) u)).congr (by simp) rfl

theorem execSetrot_noModeSwitch {r : Byte} {s t : State} (hrun : execSetrot r s = .next t) : NoModeSwitch s t := by
  obtain ⟨-, rfl⟩ := execSetrot_next hrun
  split
  · exact (noModeSwitch_rotate (r.setWidth 2)
      (checkNoBracket { s with busy := true, lat := { s.lat with r := r } })).congr (by simp) rfl
  · exact noModeSwitch_of_trace_eq (by simp [State.trace])

/-- An instruction that brackets nothing switches no mode: what each other one has done (R59). -/
theorem exec_noModeSwitch {i : Instr} {s t : State} (hbegin : i ≠ .begindata) (hend : i ≠ .enddata)
    (hbitmap : ∀ w h ox oy fg bg, i ≠ .drawbitmap w h ox oy fg bg)
    (hfill : ∀ color, i = .fillscreen color → s.cfg.fillscreenBracket = false) (hrun : exec i s = .next t) :
    NoModeSwitch s t := by
  cases i with
  | begindata => exact absurd rfl hbegin
  | enddata => exact absurd rfl hend
  | drawbitmap w h ox oy fg bg => exact absurd rfl (hbitmap w h ox oy fg bg)
  | fillscreen color => exact execFillscreen_noModeSwitch (hfill color rfl) hrun
  | setrot r => exact execSetrot_noModeSwitch hrun
  | init =>
    obtain ⟨-, rfl⟩ := execInit_next hrun
    exact noModeSwitch_of_trace_eq (by simp [State.trace])
  | runseq table =>
    obtain ⟨-, rfl⟩ := execRunseq_next hrun
    exact noModeSwitch_of_trace_eq (by simp [State.trace])
  | setwin x1 y1 x2 y2 =>
    obtain ⟨-, rfl⟩ := execSetwin_next hrun
    exact (noModeSwitch_setWindow x1 y1 x2 y2 (checkNoBracket { s with busy := true })).congr (by simp) rfl
  | sendwords ws =>
    obtain ⟨-, rfl⟩ := execSendwords_next hrun
    exact (noModeSwitch_sendWords ws (checkArmed { s with busy := true })).congr (by simp) rfl
  | fillcolor color count =>
    obtain ⟨-, rfl⟩ := execFillcolor_next hrun
    exact (noModeSwitch_fillColor color count
      (checkFill count.toNat (checkArmed { s with busy := true }))).congr (by simp) rfl
  | endRec =>
    cases hrun
    exact noModeSwitch_of_trace_eq rfl
  | delay ms =>
    cases hrun
    exact noModeSwitch_clkDelay ms s
  | cmd c params =>
    cases hrun
    exact ((noModeSwitch_txCmd c (loadRecord c (BitVec.ofNat 8 params.length) s)).trans
      (noModeSwitch_sendParams params _)).congr rfl rfl

/-! ### What the fetch finds -/

theorem fetch_of_request {s : State} {i : Instr} {rest : List Byte} (hb : s.cfg.built = true)
    (hphase : s.seq.phase = .idle) (hd : decodeRequest s.cfg.tblAddrBits s.script = .ok (i, rest)) :
    fetch s = .run i { s with script := rest } := by
  cases hs : s.script with
  | nil =>
    rw [hs] at hd
    cases hd
  | cons b bs =>
    rw [hs] at hd
    simp [fetch, fetchRequest, hb, hphase, hs, hd]

theorem fetch_of_record {s : State} {i : Instr} {rest : List Byte} (hb : s.cfg.built = true)
    (hp : s.seq.phase.runsTable = true) (hd : decodeRecord (recordBytes s) = .ok (i, rest)) : fetch s = .run i s := by
  have hrecord : fetchRecord s = .run i s := by simp [fetchRecord, hd]
  cases hphase : s.seq.phase <;> simp [hphase, Phase.runsTable] at hp <;> simp [fetch, hb, hphase, hrecord]

/-- Settles O52: a request or a record by `exec_noModeSwitch`; a step that runs none sends at most INIT's rotation. -/
theorem modeSwitchesOnlyFromBrackets : Obligations.ModeSwitchesOnlyFromBrackets := by
  intro s t hstep hquiet
  obtain ⟨hb, hcase⟩ := step_cases hstep
  cases hcase with
  | ended _ _ ht => exact noModeSwitch_of_trace_eq (by simp [ht, endOfExecution])
  | request hphase i rest hd hrun =>
    obtain ⟨hbegin, hend, hbitmap, hfill⟩ := hquiet i _ (fetch_of_request hb hphase hd)
    exact exec_noModeSwitch (s := { s with script := rest }) hbegin hend hbitmap hfill hrun
  | record hp i rest hd hrun =>
    obtain ⟨hbegin, hend, hbitmap, hfill⟩ := hquiet i _ (fetch_of_record hb hp hd)
    exact exec_noModeSwitch hbegin hend hbitmap hfill hrun
  | loadWake _ ht => exact noModeSwitch_of_trace_eq (by simp [ht])
  | rotate _ ht =>
    rw [ht]
    exact (noModeSwitch_rotate s.cfg.initRotation
      { s with lat := { s.lat with r := s.cfg.initRotation.setWidth 8 } }).congr rfl rfl

end Sys2Proof.Machine

/-! Encoding (spec/30_encoding.md): the decoders read back what the encoder writes and accept nothing ill-formed, the two
parses of a table agree, and what becomes of host bytes and tables that spell nothing. -/

namespace Sys2Proof.Machine

/-! ### Numbers and words as bytes, most significant byte first (R66, R85; log 1) -/

/-- Reading goes on from an accumulated `acc` as if its digits stood before those of `v`. -/
theorem foldl_beBytes (k v acc : Nat) :
    (beBytes k v).foldl (fun acc b => acc * 256 + b.toNat) acc = acc * 256 ^ k + v % 256 ^ k := by
  induction k generalizing acc with
  | zero => simp [beBytes, Nat.mod_one]
  | succ k ih =>
    have hdigit : (BitVec.ofNat 8 (v / 256 ^ k)).toNat = v / 256 ^ k % 256 := rfl
    have hmod : v % 256 ^ (k + 1) = v % 256 ^ k + 256 ^ k * (v / 256 ^ k % 256) := by rw [Nat.pow_succ, Nat.mod_mul]
    rw [beBytes, List.foldl_cons, ih, hdigit, hmod]
    ring

theorem beNat_beBytes {k v : Nat} (h : v < 256 ^ k) : beNat (beBytes k v) = v := by
  rw [beNat, foldl_beBytes, Nat.mod_eq_of_lt h, Nat.zero_mul, Nat.zero_add]

/-- Four bytes spell a number of 32 bits. -/
theorem beNat_four_lt (b3 b2 b1 b0 : Byte) : beNat [b3, b2, b1, b0] < 2 ^ 32 := by
  have h3 := b3.isLt
  have h2 := b2.isLt
  have h1 := b1.isLt
  have h0 := b0.isLt
  simp only [beNat, List.foldl_cons, List.foldl_nil]
  omega

/-- A table address fits the bytes its width takes (R81). -/
theorem two_pow_le_addrBytes (bits : Nat) : 2 ^ bits ≤ 256 ^ addrBytes bits := by
  have h256 : 256 = 2 ^ 8 := rfl
  rw [h256, ← Nat.pow_mul]
  exact Nat.pow_le_pow_right (by decide) (by unfold addrBytes; omega)

theorem readWords_flatMap_wordBytes {n : Nat} {ws : List Word} (h : ws.length = n) (rest : List Byte) :
    readWords n (ws.flatMap wordBytes ++ rest) = some (ws, rest) := by
  subst h
  induction ws with
  | nil => rfl
  | cons w ws ih => simp [readWords, wordBytes, ih]

theorem readWords_length {n : Nat} {bs rest : List Byte} {ws : List Word} (h : readWords n bs = some (ws, rest)) :
    ws.length = n := by
  induction n, bs using readWords.induct generalizing ws with
  | case1 bs =>
    cases h
    rfl
  | case2 n hi lo bs hnone ih => simp [readWords, hnone] at h
  | case3 n hi lo bs ws' rest' hsome ih =>
    simp only [readWords, hsome] at h
    cases h
    rw [List.length_cons, ih hsome]
  | case4 n bs hshort => simp [readWords] at h

/-- The two words of a 32-bit count. -/
theorem extractLsb'_high_append_low (v : DWord) : v.extractLsb' 16 16 ++ v.extractLsb' 0 16 = v := by
  ext i hi
  rw [BitVec.getElem_append]
  split
  · simp [BitVec.getElem_extractLsb', BitVec.getLsbD_eq_getElem hi]
  · have hindex : 16 + (i - 16) = i := by omega
    rw [BitVec.getElem_extractLsb', hindex, BitVec.getLsbD_eq_getElem hi]

/-- A 32-bit count in bytes is its high word, then its low word. -/
theorem beBytes_four_eq_words (v : DWord) :
    beBytes 4 v.toNat = [v.extractLsb' 16 16, v.extractLsb' 0 16].flatMap wordBytes := by
  have hv := v.isLt
  simp only [beBytes, wordBytes, List.flatMap_cons, List.flatMap_nil, List.cons_append, List.nil_append,
    List.cons.injEq, and_true]
  refine ⟨?_, ?_, ?_, ?_⟩ <;> apply BitVec.eq_of_toNat_eq <;>
    simp only [hi8_toNat, lo8_toNat, BitVec.toNat_ofNat, BitVec.extractLsb'_toNat, Nat.shiftRight_eq_div_pow] <;> omega

/-! ### Decoding what was encoded (R81, R82, R86) -/

theorem decodeRunseq_beBytes {bits table : Nat} (h : table < 2 ^ bits) (rest : List Byte) :
    decodeRunseq bits (beBytes (addrBytes bits) table ++ rest) = .ok (.runseq table, rest) := by
  have hlen := Laws.EncodedLength.beBytes_length (addrBytes bits) table
  have hread := beNat_beBytes (Nat.lt_of_lt_of_le h (two_pow_le_addrBytes bits))
  simp [decodeRunseq, hlen, hread, h]

theorem decodeSendwords_words {ws : List Word} (h : ws.length < 2 ^ 32) (rest : List Byte) :
    decodeSendwords (beBytes 4 ws.length ++ ws.flatMap wordBytes ++ rest) = .ok (.sendwords ws, rest) := by
  have hcount := (beNat_beBytes (k := 4) h).symm
  have hread := readWords_flatMap_wordBytes hcount rest
  simp only [beBytes] at hread
  simp only [beBytes, decodeSendwords, List.cons_append, List.nil_append, hread]

theorem decodeFillcolor_words (color : Word) (count : DWord) (rest : List Byte) :
    decodeFillcolor (wordBytes color ++ beBytes 4 count.toNat ++ rest) = .ok (.fillcolor color count, rest) := by
  have hbytes : wordBytes color ++ beBytes 4 count.toNat =
      [color, count.extractLsb' 16 16, count.extractLsb' 0 16].flatMap wordBytes := by rw [beBytes_four_eq_words]; rfl
  rw [decodeFillcolor, hbytes, readWords_flatMap_wordBytes]
  · simp only [extractLsb'_high_append_low]
  · rfl

theorem decodeSetwin_words (x1 y1 x2 y2 : Word) (rest : List Byte) :
    decodeSetwin ([x1, y1, x2, y2].flatMap wordBytes ++ rest) = .ok (.setwin x1 y1 x2 y2, rest) := by
  rw [decodeSetwin, readWords_flatMap_wordBytes]
  rfl

theorem decodeFillscreen_word (color : Word) (rest : List Byte) :
    decodeFillscreen ([color].flatMap wordBytes ++ rest) = .ok (.fillscreen color, rest) := by
  rw [decodeFillscreen, readWords_flatMap_wordBytes]
  rfl

theorem decodeDrawbitmap_words (w h ox oy fg bg : Word) (rest : List Byte) :
    decodeDrawbitmap ([w, h, ox, oy, fg, bg].flatMap wordBytes ++ rest) = .ok (.drawbitmap w h ox oy fg bg, rest) := by
  rw [decodeDrawbitmap, readWords_flatMap_wordBytes]
  rfl

/-- Settles O1: the selector picks the decoder, which reads the fields back. -/
theorem requestRoundTrip : Obligations.RequestRoundTrip := by
  intro bits i rest hreq hwf
  cases i with
  | init => rfl
  | runseq table => exact decodeRunseq_beBytes (of_decide_eq_true hwf) rest
  | setwin x1 y1 x2 y2 => exact decodeSetwin_words x1 y1 x2 y2 rest
  | begindata => rfl
  | enddata => rfl
  | sendwords words => exact decodeSendwords_words (of_decide_eq_true hwf) rest
  | fillcolor color count => exact decodeFillcolor_words color count rest
  | fillscreen color => exact decodeFillscreen_word color rest
  | drawbitmap w h ox oy fg bg => exact decodeDrawbitmap_words w h ox oy fg bg rest
  | setrot r => rfl
  | endRec => cases hreq
  | delay ms => cases hreq
  | cmd c params => cases hreq

/-- A command record with its parameter count in its second byte (R89, R119). -/
theorem decodeRecord_cmd {c a : Byte} {params : List Byte} (hend : c ≠ endMark) (hdelay : c ≠ delayMark)
    (hlen : a.toNat = params.length) (rest : List Byte) :
    decodeRecord (c :: a :: (params ++ rest)) = .ok (.cmd c params, rest) := by
  simp [decodeRecord, hend, hdelay, hlen]

/-- Settles O2: the first byte tells the three kinds apart, and a command's second byte counts its parameters. -/
theorem recordRoundTrip : Obligations.RecordRoundTrip := by
  intro bits i rest hrec hwf
  cases i with
  | endRec => rfl
  | delay ms => rfl
  | cmd c params =>
    simp only [Instr.wf, Bool.and_eq_true, decide_eq_true_eq] at hwf
    obtain ⟨⟨hend, hdelay⟩, hlen⟩ := hwf
    exact decodeRecord_cmd hend hdelay (by simp [Nat.mod_eq_of_lt hlen]) rest
  | init => cases hrec
  | runseq table => cases hrec
  | setwin x1 y1 x2 y2 => cases hrec
  | begindata => cases hrec
  | enddata => cases hrec
  | sendwords words => cases hrec
  | fillcolor color count => cases hrec
  | fillscreen color => cases hrec
  | drawbitmap w h ox oy fg bg => cases hrec
  | setrot r => cases hrec

/-! ### What the decoders accept (R81, R86, R91, R119) -/

theorem decodeRunseq_ok {bits : Nat} {bs rest : List Byte} {i : Instr} (h : decodeRunseq bits bs = .ok (i, rest)) :
    ∃ table, i = .runseq table ∧ table < 2 ^ bits := by
  unfold decodeRunseq at h
  split at h
  · cases h
  · simp only at h
    split at h
    · rename_i hlt
      cases h
      exact ⟨_, rfl, hlt⟩
    · cases h

theorem decodeSendwords_ok {bs rest : List Byte} {i : Instr} (h : decodeSendwords bs = .ok (i, rest)) :
    ∃ ws, i = .sendwords ws ∧ ws.length < 2 ^ 32 := by
  unfold decodeSendwords at h
  split at h
  · split at h
    · cases h
    · rename_i hread
      cases h
      exact ⟨_, rfl, readWords_length hread ▸ beNat_four_lt ..⟩
  · cases h

/-- A decoded request is of format REQ, with a table address and a number of words that its bytes bound (R81); case `h_n`
is selector `n`. -/
theorem decodeRequest_wf {bits : Nat} {bs rest : List Byte} {i : Instr} (h : decodeRequest bits bs = .ok (i, rest)) :
    i.isRequest = true ∧ i.wf bits = true := by
  unfold decodeRequest at h
  split at h
  · cases h
  · split at h
    case h_1 => cases h; exact ⟨rfl, rfl⟩
    case h_2 =>
      obtain ⟨table, rfl, hlt⟩ := decodeRunseq_ok h
      exact ⟨rfl, decide_eq_true hlt⟩
    case h_3 => unfold decodeSetwin at h; split at h <;> cases h; exact ⟨rfl, rfl⟩
    case h_4 => cases h; exact ⟨rfl, rfl⟩
    case h_5 => cases h; exact ⟨rfl, rfl⟩
    case h_6 =>
      obtain ⟨ws, rfl, hlt⟩ := decodeSendwords_ok h
      exact ⟨rfl, decide_eq_true hlt⟩
    case h_7 => unfold decodeFillcolor at h; split at h <;> cases h; exact ⟨rfl, rfl⟩
    case h_8 => unfold decodeFillscreen at h; split at h <;> cases h; exact ⟨rfl, rfl⟩
    case h_9 => unfold decodeDrawbitmap at h; split at h <;> cases h; exact ⟨rfl, rfl⟩
    case h_10 => unfold decodeSetrot at h; split at h <;> cases h; exact ⟨rfl, rfl⟩
    case h_11 => cases h

/-- Settles O3: the decoders bound the operands that `Instr.wf` bounds. -/
theorem decodedIsWellFormed : Obligations.DecodedIsWellFormed := by
  refine ⟨fun bits bs rest i h => decodeRequest_wf h, fun bits bs rest i h => ?_⟩
  rcases decodeRecord_cases h with ⟨rfl, -⟩ | ⟨ms, rfl, -⟩ | ⟨c, a, params, rfl, hend, hdelay, hlen, -⟩
  · exact ⟨rfl, rfl⟩
  · exact ⟨rfl, rfl⟩
  · have ha := a.isLt
    have hlt : params.length < 256 := by omega
    exact ⟨rfl, by simp [Instr.wf, hend, hdelay, hlt]⟩

/-- Settles O4: `decodeRecord_cases`, with the second byte of a command record read back from the parameters' number. -/
theorem recordLength : Obligations.RecordLength := by
  intro bs rest i h
  rcases decodeRecord_cases h with ⟨rfl, hbs⟩ | ⟨ms, rfl, hbs⟩ | ⟨c, a, params, rfl, hend, hdelay, hlen, hbs⟩
  · exact hbs
  · exact hbs
  · have ha : BitVec.ofNat 8 params.length = a := by rw [← hlen, BitVec.ofNat_toNat, BitVec.setWidth_eq]
    exact ⟨by rw [ha, hbs], hend, hdelay⟩

/-! ### The two parses of a table (R90, R119) -/

/-- A record but END leaves it to the bytes behind it whether a table parses. -/
theorem parseRecords_isSome_of_record {bs rest : List Byte} {r : Instr} (fuel : Nat)
    (hd : decodeRecord bs = .ok (r, rest)) (hr : r ≠ .endRec) :
    (parseRecords (fuel + 1) bs).isSome = (parseRecords fuel rest).isSome := by
  rcases decodeRecord_cases hd with ⟨rfl, -⟩ | ⟨ms, rfl, -⟩ | ⟨c, a, params, rfl, -⟩
  · exact absurd rfl hr
  · cases hrest : parseRecords fuel rest <;> simp [parseRecords, hd, hrest]
  · cases hrest : parseRecords fuel rest <;> simp [parseRecords, hd, hrest]

/-- The index parse from `i` and the decoder's parse of the bytes from `i` on end alike, whatever bounds their records. -/
theorem tableStop_isSome (T : List Byte) (fuel i : Nat) :
    (tableStop T fuel i).isSome = (parseRecords fuel (T.drop i)).isSome := by
  induction fuel generalizing i with
  | zero => rfl
  | succ fuel ih =>
    have hget (k : Nat) : T[i + k]? = (T.drop i)[k]? := List.getElem?_drop.symm
    have hrest (k : Nat) : (tableStop T fuel (i + k)).isSome = (parseRecords fuel ((T.drop i).drop k)).isSome := by
      rw [ih, List.drop_drop]
    have hlen : (T.drop i).length = T.length - i := List.length_drop
    rw [tableStop, ← Nat.add_zero i, hget 0, Nat.add_zero, hget 1]
    simp only [Nat.add_assoc, Nat.add_comm 2]
    generalize T.drop i = bs at hlen hrest
    match bs with
    | [] => rfl
    | [c] => by_cases hend : c = endMark <;> simp [parseRecords, decodeRecord, hend]
    | c :: a :: tail =>
      simp only [List.length_cons] at hlen
      have hfits : i + (a.toNat + 2) ≤ T.length ↔ a.toNat ≤ tail.length := by omega
      by_cases hend : c = endMark
      · simp [parseRecords, decodeRecord, hend]
      · by_cases hdelay : c = delayMark
        · have hd : decodeRecord (c :: a :: tail) = .ok (.delay a, tail) := by simp [decodeRecord, hend, if_pos hdelay]
          rw [parseRecords_isSome_of_record fuel hd nofun]
          simpa [hend, if_pos hdelay] using hrest 2
        · by_cases ha : a.toNat ≤ tail.length
          · have hd : decodeRecord (c :: a :: tail) = .ok (.cmd c (tail.take a.toNat), tail.drop a.toNat) := by
              simp [decodeRecord, hend, hdelay, ha]
            rw [parseRecords_isSome_of_record fuel hd nofun]
            simpa [hend, hdelay, hfits, ha] using hrest (a.toNat + 2)
          · simp [parseRecords, decodeRecord, hend, hdelay, hfits, ha]

/-- Settles O7: both parses take the same records, one an index, the other the bytes from there on. -/
theorem wellFormedTableIffParses : Obligations.WellFormedTableIffParses :=
  fun T => tableStop_isSome T (T.length + 1) 0

/-! ### A table that ends inside a record (R116, V1) -/

theorem recordsBefore_cases (fuel : Nat) (bs : List Byte) :
    recordsBefore (fuel + 1) bs = ([], bs) ∨
    ∃ r rest, r ≠ .endRec ∧ decodeRecord bs = .ok (r, rest) ∧
      recordsBefore (fuel + 1) bs = (r :: (recordsBefore fuel rest).1, (recordsBefore fuel rest).2) := by
  rw [recordsBefore]
  split
  · exact .inl rfl
  · exact .inl rfl
  · rename_i r rest hr hd
    exact .inr ⟨r, rest, hr, hd, rfl⟩

/-- One record but END of the table at TP (R111): TP stays inside the address space, at the bytes that follow. -/
theorem step_recordsRun {bs rest : List Byte} {r : Instr} {s : State} (hb : s.cfg.built = true)
    (hp : s.seq.phase.runsTable = true) (hs : ReadsBytes bs s) (hd : decodeRecord bs = .ok (r, rest)) (hr : r ≠ .endRec) :
    ∃ t, step s = .next t ∧ RecordsRun [r] s t ∧ t.seq.tp < 2 ^ t.cfg.tblAddrBits ∧ ReadsBytes rest t := by
  obtain ⟨t, hexec, hrun⟩ := exec_recordsRun hd hr s
  refine ⟨t, (step_of_record hb hp (decodeRecord_recordBytes hs hd)).trans hexec, hrun, ?_, hrun.reads hd hs⟩
  rw [hrun.tp, hrun.cfg]
  exact Nat.mod_lt _ (Nat.two_pow_pos _)

/-- A table's records before its END or the record that is cut short, one a step, whatever follows them. -/
theorem runSteps_recordsBefore {bs : List Byte} {s : State} (fuel : Nat) (hb : s.cfg.built = true)
    (hp : s.seq.phase.runsTable = true) (htp : s.seq.tp < 2 ^ s.cfg.tblAddrBits) (hs : ReadsBytes bs s) :
    ∃ t, runSteps (recordsBefore fuel bs).1.length s = .next t ∧ RecordsRun (recordsBefore fuel bs).1 s t ∧
      ReadsBytes (recordsBefore fuel bs).2 t := by
  induction fuel generalizing bs s with
  | zero => exact ⟨s, rfl, .refl htp, hs⟩
  | succ fuel ih =>
    rcases recordsBefore_cases fuel bs with heq | ⟨r, rest, hr, hd, heq⟩
    · rw [heq]
      exact ⟨s, rfl, .refl htp, hs⟩
    · obtain ⟨t, hstep, hrun, htp', hrest⟩ := step_recordsRun hb hp hs hd hr
      obtain ⟨u, hsteps, hruns, hreads⟩ := ih (by rw [hrun.cfg, hb]) (by rw [hrun.phase, hp]) htp' hrest
      rw [heq]
      exact ⟨u, (runSteps_succ _ hstep).trans hsteps, hrun.trans hruns, hreads⟩

/-- A record takes a byte at least (R91). -/
theorem decodeRecord_rest_length {bs rest : List Byte} {r : Instr} (hd : decodeRecord bs = .ok (r, rest)) :
    rest.length < bs.length := by
  rcases decodeRecord_cases hd with ⟨-, rfl⟩ | ⟨ms, -, rfl⟩ | ⟨c, a, params, -, -, -, -, rfl⟩
  · simp
  · simp
  · simp
    omega

/-- Where a table does not parse, a record is cut short after the records before it: `fuel` lasts to the table's end. -/
theorem decodeRecord_recordsBefore_error {fuel : Nat} {bs : List Byte} (hlen : bs.length ≤ fuel)
    (h : parseRecords (fuel + 1) bs = none) : ∃ e, decodeRecord (recordsBefore fuel bs).2 = .error e := by
  induction fuel generalizing bs with
  | zero =>
    rw [List.length_eq_zero_iff.mp (Nat.le_zero.mp hlen)]
    exact ⟨_, rfl⟩
  | succ fuel ih =>
    rw [parseRecords] at h
    rw [recordsBefore]
    split at h
    · rename_i e hd
      exact ⟨e, by simp [hd]⟩
    · cases h
    · rename_i r rest hr hd
      have hshort := decodeRecord_rest_length hd
      split at h
      · rename_i hrest
        simpa [hd] using ih (by omega) hrest
      · cases h

/-- The sequencer reads all that is left of a table that ends inside a record (R111, vectors Q7 to Q9). -/
theorem recordBytes_of_error {bs : List Byte} {s : State} {e : DecodeError} (h : ReadsBytes bs s)
    (hd : decodeRecord bs = .error e) : recordBytes s = bs := by
  have h0 := h 0
  have h1 := h 1
  match bs with
  | [] => simp [recordBytes, h0]
  | [c] => simp [recordBytes, h0, h1]
  | c :: a :: tail =>
    simp only [decodeRecord] at hd
    split at hd
    · cases hd
    · rename_i hend
      split at hd
      · cases hd
      · rename_i hdelay
        split at hd
        · cases hd
        · rename_i hshort
          simp [recordBytes, h0, h1, hend, hdelay, tableBytes_of_reads h]
          omega

/-- A step that meets a record cut short faults (V1, R116). -/
theorem step_of_overrun {s : State} {e : DecodeError} (hb : s.cfg.built = true) (hp : s.seq.phase.runsTable = true)
    (hd : decodeRecord (recordBytes s) = .error e) :
    step s = .fault (.tableOverrun (overrun (recordBytes s) s)) := by
  have hfetch : fetchRecord s = .stop (.fault (.tableOverrun (overrun (recordBytes s) s))) := by simp [fetchRecord, hd]
  rw [step, fetch, if_pos hb]
  cases hphase : s.seq.phase <;> simp [hphase, Phase.runsTable] at hp <;> simp [hfetch]

theorem overrun_trace (bs : List Byte) (s : State) : (overrun bs s).trace = s.trace ++ cutEvents bs := by
  unfold overrun
  split <;> simp [cutEvents, State.trace, sendParams_eq]

theorem overrun_frame (bs : List Byte) (s : State) :
    overrun bs s = { s with
      revTrace := (overrun bs s).revTrace, seq := (overrun bs s).seq, ghost := (overrun bs s).ghost,
      violations := (overrun bs s).violations } := by
  unfold overrun
  split <;> apply State.eq_of_fields <;> simp [sendParams_eq]

theorem mem_overrun (bs : List Byte) (s : State) : .tableOverrun ∈ (overrun bs s).violations := by simp [overrun]

/-- A host's RUNSEQ reads the byte list placed at its address, from index 0 on (R51, R111). -/
theorem readsBytes_runseq {T : List Byte} {base : Nat} {s : State} (h : TableAt s base T) (hlat : s.lat.table = base) :
    ReadsBytes T (startTable .runseq base s) := by
  obtain ⟨hspace, hlen, hread⟩ := h
  intro k
  simp only [tableByte, startTable_seq, startTable_tables, startTable_lat, startTable_cfg, startTable_tbl, hlat, hlen,
    Nat.zero_add]
  by_cases hk : k < T.length
  · have hlt : base + k < 2 ^ s.cfg.tblAddrBits := by omega
    have haddr : tableAddr s.cfg (tableAddr s.cfg base 0) k = base + k := by
      simp [tableAddr, Nat.mod_eq_of_lt hlt]
    rw [if_pos ⟨hk, hlt⟩, haddr, hread k hk]
  · rw [if_neg (fun hin => hk hin.1), List.getElem?_eq_none_iff.mpr (Nat.le_of_not_lt hk)]

/-- Settles O41: the records before the cut run as in a well-formed table, and the next fetch ends in `overrun`. -/
theorem runseqMalformedFaults : Obligations.RunseqMalformedFaults := by
  intro T base s hbusy hb htable hwf
  have haccept : execRunseq base s = .next _ := accept_of_not_busy hbusy _
  have hnone : parseRecords (T.length + 1) T = none := by
    rw [wellFormedTableIffParses, parseTable] at hwf
    simpa using hwf
  obtain ⟨e, he⟩ := decodeRecord_recordsBefore_error Nat.le.refl hnone
  obtain ⟨t, hsteps, hrun, hreads⟩ := runSteps_recordsBefore (bs := T) T.length
    (s := startTable .runseq base
      (checkNoBracket { s with busy := true, lat := { s.lat with table := base } }))
    (by simpa using hb) rfl (Nat.mod_lt _ (Nat.two_pow_pos _))
    (readsBytes_runseq (by simpa [TableAt] using htable) (by simp))
  have hbytes := recordBytes_of_error hreads he
  refine ⟨_, t, overrun (recordBytes t) t, haccept, hsteps, ?_, hbytes,
    step_of_overrun (by rw [hrun.cfg]; simpa using hb) (by rw [hrun.phase]; rfl) (by rw [hbytes]; exact he), ?_,
    mem_overrun _ _, overrun_frame _ _, ?_⟩
  · simp [State.trace, hrun.revTrace]
  · rw [← hbytes, overrun_trace]
  · rw [overrun_frame, hrun.busy]
    simp

/-! ### A step on the host's bytes (R80, R83) -/

theorem decodeRequest_reserved {op : Byte} (hop : op.toNat = 0 ∨ 10 < op.toNat) (bits : Nat) (rest : List Byte) :
    decodeRequest bits (op :: rest) = .error (.reservedSelector op) := by
  simp only [decodeRequest]
  split
  case h_11 => rfl
  all_goals omega

/-- Settles O6: no arm of the selector's match is reached but the last. -/
theorem reservedSelectorsRefused : Obligations.ReservedSelectorsRefused := by
  intro s op rest hb hphase hscript hop
  simp [step, fetch, fetchRequest, hb, hphase, hscript, decodeRequest_reserved hop, refusalOf]

/-- Settles O9: the fetch finds the request. -/
theorem stepRunsRequest : Obligations.StepRunsRequest := by
  intro s i rest hb hphase hd
  rw [step, fetch_of_request hb hphase hd]

end Sys2Proof.Machine

/-! The command sequencer (spec/40_command_sequencer.md): a step on a record, END, DELAY, CMD, and a host's RUNSEQ of a
well-formed table. -/

namespace Sys2Proof.Machine

/-! ### The records (R111 to R114) -/

/-- Settles O10: the three phases are those in which the fetch reads a record. -/
theorem stepRunsRecord : Obligations.StepRunsRecord := by
  intro s i rest hb hphase hd
  have hp : s.seq.phase.runsTable = true := by
    rcases hphase with h | h | h <;> rw [h] <;> rfl
  exact step_of_record hb hp hd

/-- END (R112) changes SQ_CMD, the phase, and BUSY where nothing is left to do. -/
theorem exec_endRec (s : State) :
    exec .endRec s = .next { s with
      busy := s.busy && decide (s.seq.phase.afterEnd ≠ .idle)
      seq := { s.seq with phase := s.seq.phase.afterEnd, cmd := 0x00 } } := rfl

/-- The sequencer reads nothing behind an END (R112). -/
theorem recordBytes_of_endMark {s : State} (h : tableByte s 0 = some endMark) : recordBytes s = [endMark] := by
  simp [recordBytes, h]

/-- Settles O36: a host's RUNSEQ has nothing left to do after its END. -/
theorem endStops : Obligations.EndStops := by
  refine ⟨fun s hp => ?_, fun s => recordBytes_of_endMark⟩
  simp [exec_endRec, hp, Phase.afterEnd]

/-- Settles O37: after either table's END INIT has a part left, so BUSY keeps its value. -/
theorem endInsideInit : Obligations.EndInsideInit := by
  constructor <;> intro s hp <;> simp [exec_endRec, hp, Phase.afterEnd]

/-- Settles O38: DELAY issues its one event between loading the record and moving TP. -/
theorem delayResult : Obligations.DelayResult :=
  fun _ _ => ⟨_, rfl, List.reverse_cons, rfl⟩

/-- Settles O39: the loop over the parameters adds their events and SQ_IDX to what `txCmd` did. -/
theorem cmdResult : Obligations.CmdResult := by
  intro c params s
  refine ⟨_, rfl, ?_, ?_⟩
  · simp [State.trace, sendParams_eq]
  · rw [sendParams_eq]
    apply State.eq_of_fields <;> simp [tableAddr]

/-! ### Where the index parse of a table stops (R90) -/

/-- The byte `k` places after index `i` is that of the bytes from `i` on. -/
theorem getElem?_of_drop_eq {T bs : List Byte} {i : Nat} (hbs : T.drop i = bs) (k : Nat) : T[i + k]? = bs[k]? := by
  rw [← hbs, List.getElem?_drop]

/-- At an END the index parse stops. -/
theorem tableStop_of_end {T rest : List Byte} {i : Nat} (fuel : Nat)
    (hd : decodeRecord (T.drop i) = .ok (.endRec, rest)) : tableStop T (fuel + 1) i = some i := by
  rcases decodeRecord_cases hd with ⟨-, hbs⟩ | ⟨ms, hr, -⟩ | ⟨c, a, params, hr, -⟩
  · have h0 : T[i]? = some endMark := getElem?_of_drop_eq hbs 0
    simp [tableStop, h0]
  · cases hr
  · cases hr

/-- At any other record the index parse goes on behind it. -/
theorem tableStop_of_record {T rest : List Byte} {i : Nat} {r : Instr} (fuel : Nat)
    (hd : decodeRecord (T.drop i) = .ok (r, rest)) (hr : r ≠ .endRec) :
    tableStop T (fuel + 1) i = tableStop T fuel (i + recordSize r) := by
  rcases decodeRecord_cases hd with ⟨rfl, -⟩ | ⟨ms, rfl, hbs⟩ | ⟨c, a, params, rfl, hend, hdelay, hlen, hbs⟩
  · exact absurd rfl hr
  · have h0 : T[i]? = some delayMark := getElem?_of_drop_eq hbs 0
    have h1 : T[i + 1]? = some ms := getElem?_of_drop_eq hbs 1
    have hne : delayMark ≠ endMark := by decide
    simp [tableStop, h0, h1, hne, recordSize, Laws.EncodedLength.bytes]
  · have h0 : T[i]? = some c := getElem?_of_drop_eq hbs 0
    have h1 : T[i + 1]? = some a := getElem?_of_drop_eq hbs 1
    have hfits : i + (2 + params.length) ≤ T.length := by
      have hcount := congrArg List.length hbs
      simp only [List.length_drop, List.length_cons, List.length_append] at hcount
      omega
    simp [tableStop, h0, h1, hend, hdelay, hlen, Nat.add_assoc, if_pos hfits, recordSize, Laws.EncodedLength.bytes]

/-- The index parse stops behind the records the decoder reads. -/
theorem tableStop_of_parse {T : List Byte} {fuel i : Nat} {rs : List Instr}
    (h : parseRecords fuel (T.drop i) = some rs) : tableStop T fuel i = some (i + (rs.map recordSize).sum) := by
  induction fuel generalizing i rs with
  | zero => cases h
  | succ fuel ih =>
    rcases parseRecords_cases h with ⟨rfl, rest, hd⟩ | ⟨r, rest, rs', rfl, hr, hd, hrest⟩
    · exact tableStop_of_end fuel hd
    · rw [rest_eq_drop hd, List.drop_drop] at hrest
      rw [tableStop_of_record fuel hd hr, ih hrest]
      simp [Nat.add_assoc]

/-- The records before END leave at least END's own byte. -/
theorem recordSizes_lt_of_parse {fuel : Nat} {bs : List Byte} {rs : List Instr} (h : parseRecords fuel bs = some rs) :
    (rs.map recordSize).sum < bs.length := by
  induction fuel generalizing bs rs with
  | zero => cases h
  | succ fuel ih =>
    rcases parseRecords_cases h with ⟨rfl, rest, hd⟩ | ⟨r, rest, rs', rfl, hr, hd, hrest⟩
    · exact Nat.zero_lt_of_lt (decodeRecord_rest_length hd)
    · have hlt := ih hrest
      rw [rest_eq_drop hd, List.length_drop] at hlt
      simp only [List.map_cons, List.sum_cons]
      omega

/-! ### A host's RUNSEQ of a well-formed table (R111, R115) -/

/-- Settles O40: `runSteps_table` from the state that accepted RUNSEQ; the table lies inside the address space, so TP does
not wrap on the way to the terminator. -/
theorem runseqRunsTable : Obligations.RunseqRunsTable := by
  intro T rs stop base s hbusy hb htable hparse hstop
  have haccept : execRunseq base s = .next _ := accept_of_not_busy hbusy _
  obtain ⟨t, hsteps, ht⟩ := runSteps_table (T := T)
    (s := startTable .runseq base (checkNoBracket { s with busy := true, lat := { s.lat with table := base } }))
    (by simpa using hb) rfl (Nat.mod_lt _ (Nat.two_pow_pos _))
    (readsBytes_runseq (by simpa [TableAt] using htable) (by simp)) hparse
  have hsum : (rs.map recordSize).sum = stop := by
    have hat : tableStop T (T.length + 1) 0 = some (0 + (rs.map recordSize).sum) := tableStop_of_parse hparse
    rw [hstop] at hat
    simpa using hat.symm
  have hend : base + stop < 2 ^ s.cfg.tblAddrBits := by
    have hlt := recordSizes_lt_of_parse hparse
    obtain ⟨hspace, -⟩ := htable
    omega
  have hbase : base % 2 ^ s.cfg.tblAddrBits = base := Nat.mod_eq_of_lt (by omega)
  refine ⟨_, t, haccept, by simp, by simp [tableAddr, hbase], hsteps, ?_, ?_, ?_, ht.phase, ?_⟩
  · simp [State.trace, ht.revTrace]
  · simp [ht.tp, tableAddr, hbase, hsum, Nat.mod_eq_of_lt hend]
  · simp [ht.busy, Phase.afterEnd]
  · rw [ht.frame]
    simp [ht.dmOpen]

end Sys2Proof.Machine

/-! The address window (spec/41_address_window.md): SETWIN, the marks V2, V3, V4 and V13 of the requests that arm, fill or
settle a window, and that FILLSCREEN alone reads DisplayState for more than its marks. -/

namespace Sys2Proof.Machine

/-! ### Pixel counts (R149, R162) -/

@[simp] theorem pixelProduct_toNat (w h : Word) : (pixelProduct w h).toNat = w.toNat * h.toNat := by
  have hlt : w.toNat * h.toNat < 2 ^ 16 * 2 ^ 16 := Nat.mul_lt_mul'' w.isLt h.isLt
  simpa [pixelProduct, BitVec.toNat_mul] using hlt

/-! ### The conditions of the marks (R133, R168) -/

theorem windowInside_iff (x1 y1 x2 y2 : Word) (s : State) :
    windowInside x1 y1 x2 y2 s = true ↔
      s.ds.valid = true ∧ x1.toNat ≤ x2.toNat ∧ x2.toNat < s.ds.width.toNat ∧ y1.toNat ≤ y2.toNat ∧
        y2.toNat < s.ds.height.toNat := by
  simp only [windowInside, Bool.and_eq_true, decide_eq_true_eq]
  tauto

/-- Whether a window lies inside the display is a matter of DisplayState alone. -/
theorem windowInside_congr (x1 y1 x2 y2 : Word) {s t : State} (h : s.ds = t.ds) :
    windowInside x1 y1 x2 y2 s = windowInside x1 y1 x2 y2 t := by
  simp only [windowInside, h]

theorem bitmapInside_iff (w h ox oy : Word) (s : State) :
    bitmapInside w h ox oy s = true ↔
      w = 0 ∨ h = 0 ∨ (s.ds.valid = true ∧ ox.toNat + w.toNat ≤ s.ds.width.toNat ∧
        oy.toNat + h.toNat ≤ s.ds.height.toNat) := by
  simp [bitmapInside, or_assoc, and_assoc]

theorem not_windowSettled_iff (g : Ghost) : ¬ windowSettled g ↔ g.armed = true ∧ g.count ≠ windowArea g :=
  Classical.not_imp

/-- Pixels are counted and overrun the same inside a bracket and outside. -/
theorem pixelMarks_txSetData (n : Nat) (s : State) : pixelMarks n (txSetData s) = pixelMarks n s :=
  markIf_violations_congr rfl

/-- `n` pixels overrun a window just armed exactly when they are more than its area (R143). -/
theorem overrunBy_of_armed {g : Ghost} (ha : g.armed = true) (hc : g.count = 0) (n : Nat) :
    g.overrunBy n = true ↔ 0 < n ∧ windowArea g < n := by
  simp [Ghost.overrunBy, ha, hc]

/-! ### SETWIN (R130 to R133) -/

theorem setWindow_eq (x1 y1 x2 y2 : Word) (s : State) :
    setWindow x1 y1 x2 y2 s = { s with
      revTrace := (windowEvents s.cfg x1 y1 x2 y2).reverse ++ s.revTrace
      lat := { s.lat with x1 := x1, y1 := y1, x2 := x2, y2 := y2 }
      ghost := { s.ghost with x1 := x1, y1 := y1, x2 := x2, y2 := y2, armed := true, count := 0 }
      violations := (setWindow x1 y1 x2 y2 s).violations } := by
  apply State.eq_of_fields <;> simp [setWindow_revTrace]

theorem exec_setwin {s : State} (hb : s.busy = false) (x1 y1 x2 y2 : Word) :
    exec (.setwin x1 y1 x2 y2) s =
      .next { setWindow x1 y1 x2 y2 (checkNoBracket { s with busy := true }) with busy := false } := by
  rw [exec, execSetwin, accept_of_not_busy hb, complete]

/-- Settles O23: the frame of `setWindow`, around it BUSY rises and falls. -/
theorem setwinResult : Obligations.SetwinResult := by
  intro x1 y1 x2 y2 s hb
  refine ⟨_, exec_setwin hb x1 y1 x2 y2, ?_, ?_⟩
  · simp [State.trace, setWindow_revTrace, windowEvents]
  · apply State.eq_of_fields <;> simp [hb]

/-- Settles O24: `mem_setWindow` for V2 and V3, `mem_checkNoBracket` for V13. -/
theorem setwinViolations : Obligations.SetwinViolations := by
  intro x1 y1 x2 y2 s hb
  refine ⟨_, exec_setwin hb x1 y1 x2 y2, fun v => ?_⟩
  have hinside := windowInside_congr x1 y1 x2 y2 (checkNoBracket_ds { s with busy := true })
  rw [mem_setWindow, mem_checkNoBracket, checkNoBracket_ghost, hinside, ← Bool.not_eq_true, windowInside_iff]
  tauto

/-! ### SENDWORDS (R133 b, R143) -/

theorem exec_sendwords {s : State} (hb : s.busy = false) (ws : List Word) :
    exec (.sendwords ws) s = .next { sendWords ws (checkArmed { s with busy := true }) with busy := false } := by
  rw [exec, execSendwords, accept_of_not_busy hb, complete]

/-- Settles O19: V4 by `checkArmed`, V3 by `pixelMarks`; while a window is armed and the words fit neither marks. -/
theorem streamingViolations : Obligations.StreamingViolations := by
  intro ws s hb
  refine ⟨_, exec_sendwords hb ws, ?_, ?_, ?_⟩ <;> rw [sendWords_eq]
  · intro harmed
    simp [harmed]
  · intro harmed hws hover
    have hpos : 0 < ws.length := List.length_pos_iff.mpr hws
    simp [Ghost.overrunBy, harmed, hpos, hover]
  · intro harmed hfit
    have hnone : s.ghost.overrunBy ws.length = false := by
      simp [Ghost.overrunBy, harmed, Nat.not_lt.mpr hfit]
    simp [pixelMarks, hnone, checkArmed, harmed, markIf_false]

/-! ### The requests that send a command first (R133 c, R241) -/

theorem mem_txCmd (v : Violation) (b : Byte) (s : State) :
    v ∈ (txCmd b s).violations ↔ v ∈ s.violations ∨ (v = .pixelCount ∧ ¬ windowSettled s.ghost) := by
  rw [txCmd_violations, mem_settleWindow, not_windowSettled_iff, or_comm]

/-- The rotation sends one command (R180). -/
theorem rotate_violations (r : BitVec 2) (s : State) :
    (rotate r s).violations = (txCmd s.cfg.cmdMemAccessCtrl s).violations := rfl

theorem exec_setrot {r : Byte} {s : State} (hb : s.busy = false) (hr : r.toNat ≤ 3) :
    exec (.setrot r) s = .next { rotate (r.setWidth 2)
      (checkNoBracket { s with busy := true, lat := { s.lat with r := r } }) with busy := false } := by
  rw [exec, execSetrot, accept_of_not_busy hb]
  simp only [if_pos hr, complete]

/-- The marks of FILLSCREEN are those of its SETWIN and its pixels, inside a bracket or not (R149, R150). -/
theorem exec_fillscreen_violations {s : State} (hb : s.busy = false) (hv : s.ds.valid = true) (color : Word) :
    ∃ t, exec (.fillscreen color) s = .next t ∧
      t.violations = pixelMarks (s.ds.width.toNat * s.ds.height.toNat)
        (setWindow 0 0 (s.ds.width - 1) (s.ds.height - 1) (checkNoBracket { s with busy := true })) := by
  obtain ⟨t, ht⟩ : ∃ t, execFillscreen color s = .next t := by
    rw [execFillscreen, accept_of_not_busy hb]
    exact ⟨_, if_pos hv⟩
  refine ⟨t, ht, ?_⟩
  obtain ⟨-, -, u, rfl, hplain, hbracket⟩ := execFillscreen_next ht
  cases hf : s.cfg.fillscreenBracket with
  | false => rw [hplain hf, fillColor_eq, pixelProduct_toNat]
  | true => rw [hbracket hf, fillColor_eq, pixelProduct_toNat, txSetCmd_violations, pixelMarks_txSetData]

/-- The window of the whole screen lies inside the display where the screen has a pixel; else a corner wraps (R133, R149). -/
theorem windowInside_screen_iff {s : State} (hv : s.ds.valid = true) :
    windowInside 0 0 (s.ds.width - 1) (s.ds.height - 1) s = true ↔ s.ds.width ≠ 0 ∧ s.ds.height ≠ 0 := by
  have hlast : ∀ v : Word, (v - 1).toNat < v.toNat ↔ v ≠ 0 := fun v => by bv_omega
  rw [windowInside_iff, hlast, hlast]
  simp [hv]

/-- As many pixels as the screen has never overrun its window: a screen of no pixels sends none (R149). -/
theorem screen_not_overrun (w h : Word) (s : State) :
    (setWindow 0 0 (w - 1) (h - 1) s).ghost.overrunBy (w.toNat * h.toNat) = false := by
  have hle : ∀ v : Word, v.toNat ≤ (v - 1).toNat + 1 := fun v => by bv_omega
  rw [Bool.eq_false_iff, setWindow_ghost, ne_eq, overrunBy_of_armed rfl rfl]
  exact fun ⟨_, hlt⟩ => absurd hlt (Nat.not_lt.mpr (Nat.mul_le_mul (hle w) (hle h)))

/-- Settles O58: each sends its first command by `txCmd`, FILLSCREEN by the SETWIN of the screen. -/
theorem commandsSettleWindow : Obligations.CommandsSettleWindow := by
  refine ⟨fun c params s => ⟨_, rfl, fun v => ?_⟩, fun r s hb hr => ⟨_, exec_setrot hb hr, fun v => ?_⟩,
    fun s hbuilt hp => ⟨_, step_of_initRotate hbuilt hp, fun v => ?_⟩, fun color s hb hv => ?_⟩
  · rw [advanceTp_violations, sendParams_eq]
    exact mem_txCmd v c _
  · rw [rotate_violations, mem_txCmd, mem_checkNoBracket, checkNoBracket_ghost]
    tauto
  · exact mem_txCmd v s.cfg.cmdMemAccessCtrl _
  · obtain ⟨t, ht, hmarks⟩ := exec_fillscreen_violations hb hv color
    refine ⟨t, ht, fun v => ?_⟩
    have hinside := windowInside_congr 0 0 (s.ds.width - 1) (s.ds.height - 1) (t := s)
      (checkNoBracket_ds { s with busy := true })
    rw [hmarks, mem_pixelMarks, screen_not_overrun, mem_setWindow, mem_checkNoBracket, not_windowSettled_iff,
      hinside, ← Bool.not_eq_true, windowInside_screen_iff hv, checkNoBracket_ghost]
    tauto

/-! ### DRAWBITMAP (R160, R168) -/

/-- DRAWBITMAP before its loop (R160): all it changes. -/
theorem beginBitmap_eq (w h ox oy fg bg : Word) (s : State) :
    let win := blitWindow s.cfg w h ox oy
    beginBitmap w h ox oy fg bg s = { s with
      revTrace := .txSetData :: ((windowEvents s.cfg win.1 win.2.1 win.2.2.1 win.2.2.2).reverse ++ s.revTrace)
      lat := { s.lat with
        x1 := win.1, y1 := win.2.1, x2 := win.2.2.1, y2 := win.2.2.2, width := w, height := h, originX := ox,
        originY := oy }
      bl := { s.bl with total := pixelProduct w h, done := 0, fg := fg, bg := bg }
      sb := { s.sb with len := 0 }
      ghost := { dmOpen := true, x1 := win.1, y1 := win.2.1, x2 := win.2.2.1, y2 := win.2.2.2, armed := true, count := 0 }
      violations := (beginBitmap w h ox oy fg bg s).violations } := by
  apply State.eq_of_fields <;> simp [beginBitmap, setWindow_revTrace]

theorem blitLoop_turn (fuel : Nat) {s : State} {b : Byte} {rest : List Byte} (hmore : s.bl.done < s.bl.total)
    (hsrc : s.source = b :: rest) :
    blitLoop (fuel + 1) s = blitLoop fuel (blitByte b (emit (.srcNext b) { s with source := rest })) := by
  simp [blitLoop, hmore, srcNext, hsrc]

theorem execDrawbitmap_of_loop {w h ox oy fg bg : Word} {s u : State} (hb : s.busy = false)
    (h8 : (pixelProduct w h).toNat % 8 = 0)
    (hloop : blitLoop ((pixelProduct w h).toNat / 8) (beginBitmap w h ox oy fg bg { s with busy := true }) = .ok u) :
    execDrawbitmap w h ox oy fg bg s = .next { txSetCmd (flush u) with busy := false } := by
  rw [execDrawbitmap_eq, accept_of_not_busy hb, if_pos h8, hloop]
  rfl

section
variable {w h ox oy : Word} {s : State} {win : Word × Word × Word × Word} (hwin : blitWindow s.cfg w h ox oy = win)
include hwin

/-- What DRAWBITMAP marks before its loop (R133, R168 c, R243). -/
theorem mem_beginBitmap (v : Violation) (fg bg : Word) :
    v ∈ (beginBitmap w h ox oy fg bg s).violations ↔ v ∈ s.violations ∨
      (v = .windowOutside ∧
        ¬ (bitmapInside w h ox oy s = true ∧ windowInside win.1 win.2.1 win.2.2.1 win.2.2.2 s = true)) ∨
      (v = .pixelCount ∧ s.ghost.armed = true ∧ s.ghost.count ≠ windowArea s.ghost) ∨
      (v = .commandInBracket ∧ s.ghost.dmOpen = true) := by
  have hinside := windowInside_congr win.1 win.2.1 win.2.2.1 win.2.2.2 (t := s)
    (s := markIf (!bitmapInside w h ox oy s) .windowOutside (checkNoBracket s)) (by simp)
  rw [beginBitmap_violations, hwin, mem_setWindow, mem_markIf, mem_checkNoBracket, hinside, markIf_ghost,
    checkNoBracket_ghost, Bool.not_eq_true', ← Bool.not_eq_true, ← Bool.not_eq_true]
  tauto

/-- When DRAWBITMAP's pixels overrun the window it programs (R133 c). -/
theorem beginBitmap_overrun_iff (fg bg : Word) (n : Nat) :
    (beginBitmap w h ox oy fg bg s).ghost.overrunBy n = true ↔
      0 < n ∧ (win.2.2.1.toNat + 1 - win.1.toNat) * (win.2.2.2.toNat + 1 - win.2.1.toNat) < n := by
  rw [beginBitmap_ghost, overrunBy_of_armed rfl rfl, hwin, windowArea]

end

/-- Settles O57: the marks before the loop, then those of the pixels of the window just armed. -/
theorem drawbitmapViolations : Obligations.DrawbitmapViolations := by
  intro w h ox oy fg bg s hb hbuilt hwords h8 hsrc win
  have hwin : blitWindow s.cfg w h ox oy = win := rfl
  clear_value win
  rw [← pixelProduct_toNat] at h8 hsrc
  obtain ⟨t, ht, -, -, -, hmarks⟩ :=
    execDrawbitmap_observed (ox := ox) (oy := oy) (fg := fg) (bg := bg) hb hbuilt hwords h8 hsrc
  refine ⟨t, ht, fun v => ?_⟩
  have hbegin := mem_beginBitmap (s := { s with busy := true }) hwin v fg bg
  have hover := beginBitmap_overrun_iff (s := { s with busy := true }) hwin fg bg (w.toNat * h.toNat)
  simp only [bitmapInside_iff, windowInside_iff] at hbegin
  rw [hmarks, pixelProduct_toNat, mem_pixelMarks, hover, hbegin, and_or_left]
  exact iff_of_eq (by ac_rfl)

/-! ### Who reads DisplayState (R132, R169 d, R234) -/

/-- `s` with another DisplayState and other violations recorded. -/
def withDisplay (ds : DisplayState) (vs : List Violation) (s : State) : State := { s with ds := ds, violations := vs }

/-- Beside DisplayState and the fault mark, `f` makes the same state whatever these two hold. -/
def DisplayBlind (f : State → State) : Prop :=
  ∀ ds vs s, ∃ ds' vs', f (withDisplay ds vs s) = withDisplay ds' vs' (f s)

theorem DisplayBlind.comp {f g : State → State} (hg : DisplayBlind g) (hf : DisplayBlind f) :
    DisplayBlind fun s => g (f s) := by
  intro ds vs s
  obtain ⟨ds1, vs1, h1⟩ := hf ds vs s
  obtain ⟨ds2, vs2, h2⟩ := hg ds1 vs1 (f s)
  exact ⟨ds2, vs2, (congrArg g h1).trans h2⟩

/-- An operation none of whose other fields depends on the two. -/
theorem displayBlind_of_eq {f : State → State}
    (h : ∀ ds vs s, f (withDisplay ds vs s) =
      withDisplay (f (withDisplay ds vs s)).ds (f (withDisplay ds vs s)).violations (f s)) : DisplayBlind f :=
  fun ds vs s => ⟨_, _, h ds vs s⟩

/-- Any condition may decide on a mark, one of DisplayState too. -/
theorem displayBlind_markIf (c : State → Bool) (v : Violation) : DisplayBlind fun s => markIf (c s) v s :=
  displayBlind_of_eq fun ds vs s => by apply State.eq_of_fields <;> simp [withDisplay]

theorem displayBlind_checkNoBracket : DisplayBlind checkNoBracket := displayBlind_markIf _ _

theorem displayBlind_checkArmed : DisplayBlind checkArmed := displayBlind_markIf _ _

theorem displayBlind_checkFill (n : Nat) : DisplayBlind (checkFill n) := displayBlind_markIf _ _

theorem displayBlind_txCmd (b : Byte) : DisplayBlind (txCmd b) :=
  displayBlind_of_eq fun ds vs s => by apply State.eq_of_fields <;> simp [withDisplay]

/-- SETWIN's events whatever DisplayState holds (R132). -/
theorem displayBlind_setWindow (x1 y1 x2 y2 : Word) : DisplayBlind (setWindow x1 y1 x2 y2) :=
  displayBlind_of_eq fun ds vs s => by
    rw [setWindow_eq, setWindow_eq x1 y1 x2 y2 s]
    rfl

theorem displayBlind_sendWords (ws : List Word) : DisplayBlind (sendWords ws) :=
  displayBlind_of_eq fun ds vs s => by
    rw [sendWords_eq, sendWords_eq]
    rfl

theorem displayBlind_fillColor (color : Word) (count : DWord) : DisplayBlind (fillColor color count) :=
  displayBlind_of_eq fun ds vs s => by
    rw [fillColor_eq, fillColor_eq]
    rfl

theorem displayBlind_sendParams (params : List Byte) : DisplayBlind (sendParams params) :=
  displayBlind_of_eq fun ds vs s => by
    rw [sendParams_eq, sendParams_eq]
    rfl

/-- The rotation writes DisplayState, it does not read it (R182). -/
theorem displayBlind_rotate (r : BitVec 2) : DisplayBlind (rotate r) :=
  displayBlind_of_eq fun ds vs s => by apply State.eq_of_fields <;> simp [withDisplay, rotate]

theorem displayBlind_flush : DisplayBlind flush :=
  displayBlind_of_eq fun ds vs s => by
    rw [flush_eq, flush_eq]
    rfl

theorem displayBlind_flushCheck : DisplayBlind flushCheck := by
  intro ds vs s
  by_cases hfull : s.cfg.cap - s.cfg.margin < s.sb.len
  · obtain ⟨ds', vs', h⟩ := displayBlind_flush ds vs s
    exact ⟨ds', vs', by rw [flushCheck, flushCheck, if_pos hfull, ← h]; exact if_pos hfull⟩
  · exact ⟨ds, vs, by rw [flushCheck, flushCheck, if_neg hfull]; exact if_neg hfull⟩

/-- One turn of DRAWBITMAP's loop: expanding a byte touches SB alone, the flush check sends words (R160). -/
theorem displayBlind_blitByte (b : Byte) : DisplayBlind (blitByte b) := by
  have hexpand : DisplayBlind fun s =>
      let s1 := expandByte { s with bl := { s.bl with byte := b } }
      { s1 with bl := { s1.bl with done := s1.bl.done + BitVec.ofNat 32 pixelsPerByte } } :=
    fun ds vs s => ⟨ds, vs, rfl⟩
  exact displayBlind_flushCheck.comp hexpand

/-- DRAWBITMAP clips nothing (R169 d): its loop runs the same turns whatever DisplayState holds. -/
theorem blitLoop_withDisplay {fuel : Nat} {s t : State} (ds : DisplayState) (vs : List Violation)
    (h : blitLoop fuel s = .ok t) : ∃ ds' vs', blitLoop fuel (withDisplay ds vs s) = .ok (withDisplay ds' vs' t) := by
  induction fuel generalizing s ds vs with
  | zero =>
    cases h
    exact ⟨ds, vs, rfl⟩
  | succ fuel ih =>
    by_cases hmore : s.bl.done < s.bl.total
    · cases hsrc : s.source with
      | nil => simp [blitLoop, hmore, srcNext, hsrc] at h
      | cons b rest =>
        rw [blitLoop_turn fuel hmore hsrc] at h
        obtain ⟨ds1, vs1, hturn⟩ := displayBlind_blitByte b ds vs (emit (.srcNext b) { s with source := rest })
        obtain ⟨ds2, vs2, hrest⟩ := ih ds1 vs1 h
        rw [← hturn] at hrest
        exact ⟨ds2, vs2, (blitLoop_turn (s := withDisplay ds vs s) fuel hmore hsrc).trans hrest⟩
    · rw [blitLoop, if_neg hmore] at h
      cases h
      exact ⟨ds, vs, if_neg hmore⟩

theorem displayBlind_beginBitmap (w h ox oy fg bg : Word) : DisplayBlind (beginBitmap w h ox oy fg bg) :=
  displayBlind_of_eq fun ds vs s => by
    rw [beginBitmap_eq, beginBitmap_eq w h ox oy fg bg s]
    rfl

/-- Where `k` answers a next state, it does so whatever DisplayState and the fault mark hold, and the next states differ
in these alone. -/
def AnswersBlind (k : State → Result) : Prop :=
  ∀ ds vs s t, k s = .next t → ∃ ds' vs', k (withDisplay ds vs s) = .next (withDisplay ds' vs' t)

theorem DisplayBlind.next {f : State → State} (hf : DisplayBlind f) : AnswersBlind fun s => .next (f s) := by
  intro ds vs s t h
  cases h
  obtain ⟨ds', vs', h'⟩ := hf ds vs s
  exact ⟨ds', vs', congrArg _ h'⟩

theorem DisplayBlind.complete {f : State → State} (hf : DisplayBlind f) : AnswersBlind fun s => complete (f s) :=
  DisplayBlind.next (DisplayBlind.comp (g := fun s => { s with busy := false }) (fun ds vs _ => ⟨ds, vs, rfl⟩) hf)

theorem AnswersBlind.accept {k : State → Result} (hk : AnswersBlind k) : AnswersBlind fun s => accept s k := by
  intro ds vs s t h
  obtain ⟨hb, hrun⟩ := accept_next h
  obtain ⟨ds', vs', h'⟩ := hk ds vs _ t hrun
  exact ⟨ds', vs', (accept_of_not_busy (s := withDisplay ds vs s) hb k).trans h'⟩

theorem execDrawbitmap_blind (w h ox oy fg bg : Word) : AnswersBlind (execDrawbitmap w h ox oy fg bg) := by
  intro ds vs s t hn
  obtain ⟨hb, h8, _, _, u, -, hloop, rfl⟩ := execDrawbitmap_next hn
  obtain ⟨ds1, vs1, hbegin⟩ := displayBlind_beginBitmap w h ox oy fg bg ds vs { s with busy := true }
  obtain ⟨ds2, vs2, hloop'⟩ := blitLoop_withDisplay ds1 vs1 hloop
  obtain ⟨ds3, vs3, hflush⟩ := displayBlind_flush ds2 vs2 u
  rw [← hbegin] at hloop'
  refine ⟨ds3, vs3, (execDrawbitmap_of_loop (s := withDisplay ds vs s) hb h8 hloop').trans ?_⟩
  rw [hflush]
  rfl

/-- No instruction but FILLSCREEN reads DisplayState for more than its marks. -/
theorem exec_blind {i : Instr} (hi : ∀ color, i ≠ .fillscreen color) : AnswersBlind (exec i) := by
  cases i with
  | fillscreen color => exact absurd rfl (hi color)
  | init =>
    have hstart : DisplayBlind (startTable .initReset 0) := fun ds vs _ => ⟨ds, vs, rfl⟩
    exact (hstart.comp displayBlind_checkNoBracket).next.accept
  | runseq table =>
    have hstart : DisplayBlind (startTable .runseq table) := fun ds vs _ => ⟨ds, vs, rfl⟩
    have hlatch : DisplayBlind fun s => { s with lat := { s.lat with table := table } } := fun ds vs _ => ⟨ds, vs, rfl⟩
    exact (hstart.comp (displayBlind_checkNoBracket.comp hlatch)).next.accept
  | setwin x1 y1 x2 y2 =>
    exact ((displayBlind_setWindow x1 y1 x2 y2).comp displayBlind_checkNoBracket).complete.accept
  | begindata =>
    have hswitch : DisplayBlind txSetData := fun ds vs _ => ⟨ds, vs, rfl⟩
    exact (hswitch.comp (displayBlind_markIf (fun s => s.ghost.dmOpen) .bracketPairing)).complete.accept
  | enddata =>
    have hswitch : DisplayBlind txSetCmd := fun ds vs _ => ⟨ds, vs, rfl⟩
    exact (hswitch.comp (displayBlind_markIf (fun s => !s.ghost.dmOpen) .bracketPairing)).complete.accept
  | sendwords ws => exact ((displayBlind_sendWords ws).comp displayBlind_checkArmed).complete.accept
  | fillcolor color count =>
    exact ((displayBlind_fillColor color count).comp
      ((displayBlind_checkFill count.toNat).comp displayBlind_checkArmed)).complete.accept
  | drawbitmap w h ox oy fg bg => exact execDrawbitmap_blind w h ox oy fg bg
  | setrot r =>
    have hlatch : DisplayBlind fun s => { s with lat := { s.lat with r := r } } := fun ds vs _ => ⟨ds, vs, rfl⟩
    have hrotate : DisplayBlind fun s => if r.toNat ≤ 3 then rotate (r.setWidth 2) s else mark .rotationSelector s := by
      split
      · exact displayBlind_rotate _
      · exact displayBlind_markIf (fun _ => true) .rotationSelector
    exact (hrotate.comp (displayBlind_checkNoBracket.comp hlatch)).complete.accept
  | endRec => exact DisplayBlind.next fun ds vs _ => ⟨ds, vs, rfl⟩
  | delay ms => exact DisplayBlind.next fun ds vs _ => ⟨ds, vs, rfl⟩
  | cmd c params =>
    have hload : DisplayBlind (loadRecord c (BitVec.ofNat 8 params.length)) := fun ds vs _ => ⟨ds, vs, rfl⟩
    have hadvance : DisplayBlind (advanceTp (2 + params.length)) := fun ds vs _ => ⟨ds, vs, rfl⟩
    exact (hadvance.comp ((displayBlind_sendParams params).comp ((displayBlind_txCmd c).comp hload))).next

/-- Settles O53: the two next states agree in all but DisplayState and the marks, so in the trace and the source. -/
theorem onlyFillscreenReadsDisplayState : Obligations.OnlyFillscreenReadsDisplayState := by
  intro i s t ds hi h
  obtain ⟨ds', vs', h'⟩ := exec_blind hi ds s.violations s t h
  exact ⟨_, h', rfl, rfl⟩

end Sys2Proof.Machine

/-! The pixel streamer (spec/42_pixel_streamer.md): the data bracket, SENDWORDS, FILLCOLOR and FILLSCREEN, the full
trace of DRAWBITMAP, who records V13, and the end of an execution. -/

namespace Sys2Proof.Machine

/-! ### The data bracket (R140, R142) -/

theorem exec_begindata {s : State} (hb : s.busy = false) :
    exec .begindata s =
      .next { txSetData (markIf s.ghost.dmOpen .bracketPairing { s with busy := true }) with busy := false } := by
  rw [exec, execBegindata, accept_of_not_busy hb, complete]

theorem exec_enddata {s : State} (hb : s.busy = false) :
    exec .enddata s =
      .next { txSetCmd (markIf (!s.ghost.dmOpen) .bracketPairing { s with busy := true }) with busy := false } := by
  rw [exec, execEnddata, accept_of_not_busy hb, complete]

/-- Settles O15: V5 by `markIf` where a bracket is open, the event and the bracket by `txSetData`. -/
theorem begindataResult : Obligations.BegindataResult := by
  intro s hb
  refine ⟨_, exec_begindata hb, by simp [State.trace], ?_, ?_, ?_⟩
  · intro hopen
    simp [hopen]
  · intro hclosed
    simp [hclosed, markIf_false]
  · apply State.eq_of_fields <;> simp [hb]

/-- Settles O16: V5 by `markIf` where no bracket is open, the event and the bracket by `txSetCmd`. -/
theorem enddataResult : Obligations.EnddataResult := by
  intro s hb
  refine ⟨_, exec_enddata hb, by simp [State.trace], ?_, ?_, ?_⟩
  · intro hclosed
    simp [hclosed]
  · intro hopen
    simp [hopen, markIf_false]
  · apply State.eq_of_fields <;> simp [hb]

/-! ### SENDWORDS and FILLCOLOR (R143 to R146) -/

theorem pixels_eq (n : Nat) (g : Ghost) :
    g.pixels n = { g with count := if g.armed then g.count + n else g.count } := by
  unfold Ghost.pixels
  split <;> rfl

/-- A word is two data bytes (R143). -/
@[simp] theorem wordsEvents_length (ws : List Word) : (wordsEvents ws).length = 2 * ws.length := by
  simp [wordsEvents, wordEvents, List.length_flatMap, Nat.mul_comm]

/-- SENDWORDS (R143): all it changes. -/
theorem exec_sendwords_eq {s : State} (hb : s.busy = false) (ws : List Word) :
    exec (.sendwords ws) s = .next { s with
      revTrace := (wordsEvents ws).reverse ++ s.revTrace
      fc := { s.fc with pos := BitVec.ofNat 32 ws.length }
      ghost := s.ghost.pixels ws.length
      violations := pixelMarks ws.length (checkArmed s) } := by
  have hmarks : pixelMarks ws.length (checkArmed { s with busy := true }) = pixelMarks ws.length (checkArmed s) :=
    pixelMarks_congr _ (by simp) (markIf_violations_congr rfl)
  rw [exec_sendwords hb, sendWords_eq, hmarks]
  congr 1
  apply State.eq_of_fields <;> simp [hb]

/-- FILLCOLOR (R145): all it changes. -/
theorem exec_fillcolor_eq {s : State} (hb : s.busy = false) (color : Word) (count : DWord) :
    exec (.fillcolor color count) s = .next { s with
      revTrace := (wordsEvents (List.replicate count.toNat color)).reverse ++ s.revTrace
      fc := { s.fc with color := color, remain := 0 }
      ghost := s.ghost.pixels count.toNat
      violations := pixelMarks count.toNat (checkFill count.toNat (checkArmed s)) } := by
  have hmarks : pixelMarks count.toNat (checkFill count.toNat (checkArmed { s with busy := true })) =
      pixelMarks count.toNat (checkFill count.toNat (checkArmed s)) := by
    refine pixelMarks_congr _ (by simp) ?_
    simp only [checkFill, checkArmed_ghost]
    exact markIf_violations_congr (markIf_violations_congr rfl)
  rw [exec, execFillcolor, accept_of_not_busy hb, complete, fillColor_eq, hmarks]
  congr 1
  apply State.eq_of_fields <;> simp [hb]

/-- Settles O17: `exec_sendwords_eq`, two events a word. -/
theorem sendwordsResult : Obligations.SendwordsResult := by
  intro ws s hb
  refine ⟨_, exec_sendwords_eq hb ws, by simp [State.trace, wordsEvents], by simp [State.trace], ?_⟩
  rw [pixels_eq]

/-- Settles O18: FILLCOLOR's trace and ghost state are SENDWORDS's of the copies; its marks differ by `checkFill`. -/
theorem fillcolorResult : Obligations.FillcolorResult := by
  intro color count s hb
  refine ⟨_, _, exec_fillcolor_eq hb color count, exec_sendwords_eq hb (List.replicate count.toNat color), ?_,
    by simp [State.trace], rfl, by simp, fun v => ?_, rfl⟩
  · simp [State.trace, wordsEvents, List.flatMap_replicate, wordEvents]
  · simp only [mem_pixelMarks, mem_checkFill, checkFill_ghost, checkArmed_ghost, List.length_replicate, windowLeft]
    tauto

/-! ### FILLSCREEN (R149, R150) -/

/-- FILLSCREEN (R149, R150): all it changes. -/
theorem exec_fillscreen_eq {s : State} (hb : s.busy = false) (hv : s.ds.valid = true) (color : Word) :
    let n := s.ds.width.toNat * s.ds.height.toNat
    let pixels := wordsEvents (List.replicate n color)
    exec (.fillscreen color) s = .next { s with
      revTrace := (windowEvents s.cfg 0 0 (s.ds.width - 1) (s.ds.height - 1) ++
        (if s.cfg.fillscreenBracket then [.txSetData] ++ pixels ++ [.txSetCmd] else pixels)).reverse ++ s.revTrace
      fc := { s.fc with color := color, remain := 0 }
      lat := { s.lat with x1 := 0, y1 := 0, x2 := s.ds.width - 1, y2 := s.ds.height - 1 }
      ghost :=
        { dmOpen := if s.cfg.fillscreenBracket then false else s.ghost.dmOpen, x1 := 0, y1 := 0,
          x2 := s.ds.width - 1, y2 := s.ds.height - 1, armed := true, count := n }
      violations := pixelMarks n
        (setWindow 0 0 (s.ds.width - 1) (s.ds.height - 1) (checkNoBracket s)) } := by
  intro n pixels
  obtain ⟨t, ht, hmarks⟩ := exec_fillscreen_violations hb hv color
  have hbusy := pixelMarks_congr n (s := setWindow 0 0 (s.ds.width - 1) (s.ds.height - 1) (checkNoBracket s))
    (t := setWindow 0 0 (s.ds.width - 1) (s.ds.height - 1) (checkNoBracket { s with busy := true })) (by simp)
    (setWindow_violations_congr _ _ _ _ (by simp) (by simp) (markIf_violations_congr rfl))
  obtain ⟨-, -, u, rfl, hplain, hbracket⟩ := execFillscreen_next ht
  rw [ht, hbusy, ← hmarks]
  congr 1
  cases hf : s.cfg.fillscreenBracket with
  | false =>
    rw [hplain hf, fillColor_eq]
    apply State.eq_of_fields <;> simp [hb, pixels_eq, setWindow_revTrace, n, pixels]
  | true =>
    rw [hbracket hf, fillColor_eq]
    apply State.eq_of_fields <;> simp [hb, pixels_eq, setWindow_revTrace, n, pixels]

/-- Settles O20: `exec_fillscreen_eq`, its events put in the order they were issued. -/
theorem fillscreenResult : Obligations.FillscreenResult := by
  intro color s hb hv n pixels
  refine ⟨_, exec_fillscreen_eq hb hv color, ?_, rfl⟩
  rw [State.trace, List.reverse_append, List.reverse_reverse, ← List.append_assoc]
  rfl

theorem settleWindow_of_settled {s : State} (h : windowSettled s.ghost) : settleWindow s = s := by
  have hfalse : (s.ghost.armed && decide (s.ghost.count ≠ windowArea s.ghost)) = false := by
    simpa [windowSettled] using h
  rw [settleWindow, hfalse, markIf_false]

theorem checkNoBracket_of_closed {s : State} (h : s.ghost.dmOpen = false) : checkNoBracket s = s := by
  rw [checkNoBracket, h, markIf_false]

theorem pixelMarks_of_not_overrun {n : Nat} {s : State} (h : s.ghost.overrunBy n = false) :
    pixelMarks n s = s.violations := by
  rw [pixelMarks, h, markIf_false]

/-- A window inside the display adds no mark where the window armed before is filled (R133). -/
theorem setWindow_violations_of_inside {x1 y1 x2 y2 : Word} {s : State} (hinside : windowInside x1 y1 x2 y2 s = true)
    (hsettled : windowSettled s.ghost) : (setWindow x1 y1 x2 y2 s).violations = s.violations := by
  rw [setWindow_violations, hinside, Bool.not_true, markIf_false, settleWindow_of_settled hsettled]

/-- The window of the whole screen has as many pixels as the screen (R149). -/
theorem screen_area {w h : Word} (hw : w ≠ 0) (hh : h ≠ 0) :
    ((w - 1).toNat + 1 - (0 : Word).toNat) * ((h - 1).toNat + 1 - (0 : Word).toNat) = w.toNat * h.toNat := by
  have hlast : ∀ v : Word, v ≠ 0 → (v - 1).toNat + 1 - (0 : Word).toNat = v.toNat := fun v hv => by bv_omega
  rw [hlast w hw, hlast h hh]

/-- Settles O21: none of the conditions of V2, V3 and V13 holds, and the pixels are as many as the window's area. -/
theorem fillscreenKeepsContracts : Obligations.FillscreenKeepsContracts := by
  intro color s hb hv hw hh hclosed hsettled
  refine ⟨_, exec_fillscreen_eq hb hv color, ?_, rfl, (screen_area hw hh).symm⟩
  have hinside := (windowInside_screen_iff hv).mpr ⟨hw, hh⟩
  dsimp only
  rw [pixelMarks_of_not_overrun (screen_not_overrun _ _ _), checkNoBracket_of_closed hclosed,
    setWindow_violations_of_inside hinside hsettled]

/-! ### The full trace of DRAWBITMAP (R153, R167) -/

/-- The loop's trace up to its next flush: the source bytes still to come for the batch of `k`, then the words SB holds
with theirs. -/
theorem blitTail_batch (fg bg : Word) {k : Nat} {held : List Byte} (bytes : List Byte) (hk : held.length < k) :
    blitTail fg bg k held bytes =
      (bytes.take (k - held.length)).map .srcNext ++
        wordsEvents ((held ++ bytes.take (k - held.length)).flatMap (byteColors fg bg)) ++
        blitTail fg bg k [] (bytes.drop (k - held.length)) := by
  induction bytes generalizing held with
  | nil => simp [blitTail, wordsEvents]
  | cons b bytes ih =>
    have hmissing : k - held.length = k - (held.length + 1) + 1 := by omega
    rw [blitTail, hmissing]
    split
    · rename_i hfull
      simp [Nat.sub_eq_zero_of_le hfull]
    · rename_i hroom
      rw [ih (by simpa using hroom)]
      simp

/-- From an empty SB the loop's trace is that of its batches, each of at least one source byte. -/
theorem blitTail_eq_blitEvents (fg bg : Word) {k n : Nat} {bytes : List Byte} (hk : 0 < k) (hn : bytes.length ≤ n) :
    blitTail fg bg k [] bytes = blitEvents fg bg k n bytes := by
  induction n generalizing bytes with
  | zero =>
    obtain rfl : bytes = [] := List.length_eq_zero_iff.mp (Nat.le_zero.mp hn)
    rfl
  | succ n ih =>
    rw [blitEvents]
    split
    · rename_i hnil
      rw [hnil]
      rfl
    · rename_i hbytes
      have hpos : 0 < bytes.length := List.length_pos_iff.mpr hbytes
      rw [blitTail_batch fg bg bytes hk]
      simp only [List.length_nil, Nat.sub_zero, List.nil_append]
      rw [ih (by rw [List.length_drop]; omega)]

/-- Settles O28: `execDrawbitmap_observed`, its trace cut into batches. -/
theorem drawbitmapInterleaving : Obligations.DrawbitmapInterleaving := by
  intro w h ox oy fg bg s hb hbuilt hwords h8 hsrc n win
  have hbatch : 0 < s.cfg.batch / 8 := by
    rw [batch_eq]
    omega
  rw [← pixelProduct_toNat] at h8 hsrc
  obtain ⟨t, ht, htrace, -⟩ :=
    execDrawbitmap_observed (ox := ox) (oy := oy) (fg := fg) (bg := bg) hb hbuilt hwords h8 hsrc
  refine ⟨t, ht, ?_⟩
  rw [htrace, pixelProduct_toNat, blitTail_eq_blitEvents fg bg hbatch (List.length_take_le n s.source)]

/-! ### Who records V13 (R141, R243) -/


/-- Settles O56: the six requests begin with `checkNoBracket`; every other mark has a name of its own. -/
theorem commandInBracketMarked : Obligations.CommandInBracketMarked := by
  intro i s t h
  cases i with
  | init =>
    obtain ⟨-, rfl⟩ := execInit_next h
    simp [or_comm]
  | runseq table =>
    obtain ⟨-, rfl⟩ := execRunseq_next h
    simp [or_comm]
  | setwin x1 y1 x2 y2 =>
    obtain ⟨-, rfl⟩ := execSetwin_next h
    simp [or_comm]
  | begindata =>
    obtain ⟨-, rfl⟩ := execBegindata_next h
    simp
  | enddata =>
    obtain ⟨-, rfl⟩ := execEnddata_next h
    simp
  | sendwords ws =>
    obtain ⟨-, rfl⟩ := execSendwords_next h
    simp [sendWords_eq]
  | fillcolor color count =>
    obtain ⟨-, rfl⟩ := execFillcolor_next h
    simp [fillColor_eq]
  | fillscreen color =>
    obtain ⟨hb, hv, -⟩ := execFillscreen_next h
    obtain ⟨t', ht', hmarks⟩ := exec_fillscreen_violations hb hv color
    obtain rfl : t = t' := by simpa [h] using ht'
    simp [hmarks, or_comm]
  | drawbitmap w h' ox oy fg bg =>
    obtain ⟨-, -, evs, n, u, ⟨-, -, -, hu⟩, -, rfl⟩ := execDrawbitmap_next h
    have hbegin := mem_beginBitmap (s := { s with busy := true }) (w := w) (h := h') (ox := ox) (oy := oy) rfl
      .commandInBracket fg bg
    have hloop : .commandInBracket ∈ u.violations ↔
        .commandInBracket ∈ (beginBitmap w h' ox oy fg bg { s with busy := true }).violations := by
      rw [hu]
      simp
    simp [flush_eq, hloop, hbegin]
  | setrot r =>
    obtain ⟨-, rfl⟩ := execSetrot_next h
    split <;> simp [rotate_violations, or_comm]
  | endRec =>
    cases h
    simp
  | delay ms =>
    cases h
    simp [clkDelay]
  | cmd c params =>
    cases h
    simp [sendParams_eq]

/-! ### The end of an execution (R141, R254) -/

theorem step_of_ended {s : State} (hb : s.cfg.built = true) (hphase : s.seq.phase = .idle) (hscript : s.script = []) :
    step s = .next (endOfExecution s) := by
  simp [step, fetch, fetchRequest, hb, hphase, hscript]

theorem mem_endOfExecution (v : Violation) (s : State) :
    v ∈ (endOfExecution s).violations ↔ v ∈ s.violations ∨ (v = .bracketPairing ∧ s.ghost.dmOpen = true) ∨
      (v = .pixelCount ∧ ¬ windowSettled s.ghost) := by
  rw [endOfExecution, mem_settleWindow, mem_markIf, markIf_ghost, not_windowSettled_iff]
  tauto

theorem endOfExecution_of_settled {s : State} (hclosed : s.ghost.dmOpen = false) (hsettled : windowSettled s.ghost) :
    endOfExecution s = s := by
  rw [endOfExecution, hclosed, markIf_false, settleWindow_of_settled hsettled]

/-- Settles O13: the end adds marks alone, and none where no bracket is open and every armed window is filled. -/
theorem endOfExecution_adds_marks_only : Obligations.EndOfExecution := by
  intro s hb hphase hscript
  refine ⟨_, step_of_ended hb hphase hscript, ?_, ?_, ?_, endOfExecution_of_settled⟩
  · apply State.eq_of_fields <;> simp [endOfExecution]
  · intro hopen
    exact (mem_endOfExecution _ s).mpr (.inr (.inl ⟨rfl, hopen⟩))
  · intro harmed hcount
    exact (mem_endOfExecution _ s).mpr (.inr (.inr ⟨rfl, (not_windowSettled_iff s.ghost).mpr ⟨harmed, hcount⟩⟩))

end Sys2Proof.Machine

/-! The bitmap blitter (spec/43_bitmap_blitter.md): the colour of each pixel, the window, what DRAWBITMAP leaves where its
source answers, and where it stops without an answer. -/

namespace Sys2Proof.Machine

/-! ### Bit to colour (R164) -/

theorem byteColors_getElem? (fg bg : Word) (b : Byte) {k : Nat} (hk : k < 8) :
    (byteColors fg bg b)[k]? = some (bitColor fg bg b (7 - k)) := by
  rw [byteColors, List.getElem?_map, List.getElem?_reverse (by simpa using hk), List.getElem?_range (by simp; omega)]
  rfl

/-- Settles O25: each source byte has 8 pixels, so the first is passed over for the pixels from 8 on. -/
theorem pixelColour : Obligations.PixelColour := by
  intro fg bg bytes p h
  induction bytes generalizing p with
  | nil => simp at h
  | cons b bytes ih =>
    rw [List.flatMap_cons]
    by_cases hp : p < 8
    · rw [List.getElem?_append_left (by simpa using hp), byteColors_getElem? fg bg b hp, bitColor]
      simp [Nat.div_eq_of_lt hp, Nat.mod_eq_of_lt hp]
    · obtain ⟨q, rfl⟩ := Nat.exists_eq_add_of_le' (Nat.le_of_not_lt hp)
      rw [List.getElem?_append_right (by simp), byteColors_length, Nat.add_sub_cancel, ih q (by simp at h; omega)]
      simp

/-! ### The window (R161) -/

/-- Settles O26: each reading is a branch of `blitWindow`. -/
theorem blitWindowReadings : Obligations.BlitWindowReadings := by
  intro cfg w h ox oy
  refine ⟨fun hr => ?_, fun hr => ?_, fun hr => ?_⟩ <;> rw [blitWindow, hr]

/-! ### Where DRAWBITMAP has no answer (R168 a, b) -/

/-- Settles O31: the product is tested before the window is programmed. -/
theorem drawbitmapPartialByteRefused : Obligations.DrawbitmapPartialByteRefused := by
  intro w h ox oy fg bg s hb h8
  rw [← pixelProduct_toNat] at h8
  rw [exec, execDrawbitmap_eq, accept_of_not_busy hb, if_neg h8]

/-- A loop that needs more bytes than the source has ends in V7, after it took them all (R62, R168 b). -/
theorem blitLoop_exhausted {fuel : Nat} {s : State} (htot : s.bl.done.toNat + 8 * fuel = s.bl.total.toNat)
    (hshort : s.source.length < fuel) :
    ∃ evs n t, BlitStep evs n s t ∧ t.source = [] ∧
      blitLoop fuel s = .error (.sourceExhausted (mark .sourceExhausted t)) := by
  obtain ⟨evs, n, t, hstep, hok | ⟨herror, hempty⟩⟩ := blitLoop_frame fuel s
  · exact absurd (blitLoop_ok_source fuel hok htot) (Nat.not_le.mpr hshort)
  · exact ⟨evs, n, t, hstep, hempty, herror⟩

/-- Settles O32: `blitLoop_exhausted` from what `beginBitmap` leaves; the loop's events are data and source calls. -/
theorem drawbitmapSourceExhausted : Obligations.DrawbitmapSourceExhausted := by
  intro w h ox oy fg bg s hb h8 hshort win
  rw [← pixelProduct_toNat] at h8 hshort
  obtain ⟨evs, n, t, ⟨hev, hsrc, -, ht⟩, hempty, hloop⟩ :=
    blitLoop_exhausted (s := beginBitmap w h ox oy fg bg { s with busy := true })
      (fuel := (pixelProduct w h).toNat / 8) (by simpa using Nat.mul_div_cancel' (Nat.dvd_of_mod_eq_zero h8))
      (by simpa using hshort)
  refine ⟨mark .sourceExhausted t, evs, ?_, ?_, ?_, fun hmem => ?_, ?_, ?_, ?_, ?_⟩
  · rw [exec, execDrawbitmap_eq, accept_of_not_busy hb, if_pos h8, hloop]
  · rw [mark_trace, ht]
    simp [State.trace, beginBitmap_revTrace, win]
  · simpa [hempty] using hsrc.symm
  · exact absurd (hev _ hmem) (by decide)
  · rw [mark_source, hempty]
  · rw [mark_busy, ht, beginBitmap_eq]
  · rw [mark_ghost, ht]
    simp [beginBitmap_ghost]
  · simp

/-! ### DRAWBITMAP whose source answers (R160, R165, R166) -/

/-- Settles O27: `execDrawbitmap_ok` from what `beginBitmap` leaves; of the batches the Transport sees the words, the
source its calls. -/
theorem drawbitmapResult : Obligations.DrawbitmapResult := by
  intro w h ox oy fg bg s hb hbuilt hwords h8 hsrc n win
  rw [← pixelProduct_toNat] at h8 hsrc
  obtain ⟨words, byte, pos, hexec⟩ :=
    execDrawbitmap_ok (ox := ox) (oy := oy) (fg := fg) (bg := bg) hb hbuilt hwords h8 hsrc
  obtain ⟨t, ht, htrace, -⟩ :=
    execDrawbitmap_observed (ox := ox) (oy := oy) (fg := fg) (bg := bg) hb hbuilt hwords h8 hsrc
  rw [pixelProduct_toNat] at hexec htrace
  obtain rfl := Host.Outcome.next.inj (ht.symm.trans hexec)
  refine ⟨_, hexec, ?_, ?_, ?_, rfl, ?_⟩
  · rw [htrace]
    simp only [transport_append, transport_blitTail]
    rfl
  · rw [htrace]
    simp only [sourceCalls_append, sourceCalls_blitTail]
    simp [sourceCalls, windowEvents, n]
  · simp
  · rw [beginBitmap_eq]
    apply State.eq_of_fields <;> simp [hb, n, win]

end Sys2Proof.Machine

/-! The rotation mapper (spec/44_rotation_mapper.md): what a rotation changes, SETROT within its table and out of it, and
INIT's own two steps. -/

namespace Sys2Proof.Machine

/-! ### The rotation (R180, R182) -/

/-- All that a rotation changes. -/
theorem rotate_eq (q : BitVec 2) (s : State) :
    rotate q s = { s with
      ds := (rotate q s).ds
      revTrace := .txData (rotCtrl q) :: .txCmd s.cfg.cmdMemAccessCtrl :: s.revTrace
      ghost := { s.ghost with armed := false }
      violations := (rotate q s).violations } := by
  apply State.eq_of_fields <;> simp [rotate, rotMap_ctrl]

/-- Of the parameters the rotation's DisplayState reads the native size alone (R184). -/
theorem rotate_ds_of_native_eq (q : BitVec 2) {s s' : State} (hw : s.cfg.nativeW = s'.cfg.nativeW)
    (hh : s.cfg.nativeH = s'.cfg.nativeH) : (rotate q s).ds = (rotate q s').ds := by
  simp [rotate, hw, hh]

/-! ### SETROT with a selector of 0 to 3 (R180, R181, R184) -/

/-- Everything SETROT leaves, but for the marks, which `commandsSettleWindow` names. -/
theorem exec_setrot_eq {r : Byte} {s : State} (hb : s.busy = false) (hr : r.toNat ≤ 3) :
    ∃ t, exec (.setrot r) s = .next t ∧ t = { s with
      ds := (rotate (r.setWidth 2) s).ds
      revTrace := .txData (rotCtrl (r.setWidth 2)) :: .txCmd s.cfg.cmdMemAccessCtrl :: s.revTrace
      lat := { s.lat with r := r }
      ghost := { s.ghost with armed := false }
      violations := t.violations } := by
  refine ⟨_, exec_setrot hb hr, ?_⟩
  rw [rotate_eq, rotate_ds_of_native_eq (s' := s) _ (by simp) (by simp)]
  apply State.eq_of_fields <;> simp [hb]

/-- Settles O35: `exec_setrot_eq` for each of the three runs; the DisplayState it leaves reads the native size alone. -/
theorem setrotHasNoHistory : Obligations.SetrotHasNoHistory := by
  intro r s s' hb hb' hw hh hr
  obtain ⟨t, hrun, ht⟩ := exec_setrot_eq hb hr
  obtain ⟨t', hrun', ht'⟩ := exec_setrot_eq hb' hr
  have hcfg : t.cfg = s.cfg := by rw [ht]
  have hds : t.ds = (rotate (r.setWidth 2) s).ds := by rw [ht]
  obtain ⟨t2, hrun2, ht2⟩ := exec_setrot_eq (s := t) (by rw [ht]; exact hb) hr
  refine ⟨t, t', t2, [.txCmd s.cfg.cmdMemAccessCtrl, .txData (rotCtrl (r.setWidth 2))], hrun, hrun', hrun2, ?_, ?_,
    rfl, ?_, ?_⟩
  · rw [hds, ht']
    exact rotate_ds_of_native_eq _ hw hh
  · rw [hds, ht2]
    exact rotate_ds_congr _ hcfg
  · rw [ht]
    simp [State.trace]
  · rw [ht2]
    simp [State.trace, hcfg]

/-- Settles O33: `exec_setrot_eq`; control byte and dimensions are read off the table for each selector. -/
theorem setrotResult : Obligations.SetrotResult := by
  intro r s hb hr
  obtain ⟨t, hrun, ht⟩ := exec_setrot_eq hb hr
  have hds : t.ds = (rotate (r.setWidth 2) s).ds := by rw [ht]
  obtain ⟨-, hrot, hvalid, -⟩ := rotate_ds (r.setWidth 2) s
  rw [← hds] at hrot hvalid
  have htrace : t.trace = s.trace ++ [.txCmd s.cfg.cmdMemAccessCtrl, .txData (rotCtrl (r.setWidth 2))] := by
    rw [ht]
    simp [State.trace]
  have hselector : (r.setWidth 2).toNat = r.toNat := by bv_omega
  refine ⟨t, _, hrun, htrace, by rw [hrot, hselector], hvalid, ?_, ?_, ?_, ?_, by rw [ht]⟩
  all_goals
    rintro rfl
    rw [hds]
    exact ⟨rfl, rfl, rfl⟩

/-! ### SETROT with a selector above 3 (R183) -/

theorem exec_setrot_outOfRange {r : Byte} {s : State} (hb : s.busy = false) (hr : 3 < r.toNat) :
    exec (.setrot r) s = .next { mark .rotationSelector
      (checkNoBracket { s with busy := true, lat := { s.lat with r := r } }) with busy := false } := by
  rw [exec, execSetrot, accept_of_not_busy hb]
  simp only [if_neg (Nat.not_le.mpr hr), complete]

/-- Settles O34: V8 by `mark`, V13 by `checkNoBracket`, and neither touches anything but the marks. -/
theorem setrotOutOfRange : Obligations.SetrotOutOfRange := by
  intro r s hb hr
  refine ⟨_, exec_setrot_outOfRange hb hr, by simp [State.trace], by simp, fun v => ?_, ?_⟩
  · rw [mem_mark, mem_checkNoBracket]
    tauto
  · apply State.eq_of_fields <;> simp [hb]

/-! ### INIT's own two steps (R186) -/

theorem initLoadWake_eq (s : State) :
    initLoadWake s = { s with seq := { s.seq with phase := .initWake, tp := 0, pos := 0 } } := by
  simp [initLoadWake, startTable, tableAddr]

/-- All that INIT's last part changes. -/
theorem initRotate_eq (s : State) :
    initRotate s = { s with
      ds := (initRotate s).ds
      busy := false
      seq := { s.seq with phase := .idle }
      lat := { s.lat with r := s.cfg.initRotation.setWidth 8 }
      ghost := { s.ghost with armed := false }
      revTrace := (initRotate s).revTrace
      violations := (initRotate s).violations } := by
  rw [initRotate, rotate_eq]

/-- Settles O11: a step in each of the two phases is `initLoadWake` or `initRotate`. -/
theorem initContinues : Obligations.InitContinues := by
  refine ⟨fun s hbuilt hp => ?_, fun s hbuilt hp => ?_⟩
  · rw [step_of_initLoadWake hbuilt hp, initLoadWake_eq]
  · obtain ⟨hagrees, hrot, hvalid, -⟩ := rotate_ds s.cfg.initRotation
      { s with lat := { s.lat with r := s.cfg.initRotation.setWidth 8 } }
    exact ⟨_, step_of_initRotate hbuilt hp, by simp [State.trace, initRotate_revTrace], hvalid, hrot, hagrees, rfl,
      initRotate_eq s⟩

end Sys2Proof.Machine

/-! Violations (spec/60_exceptions.md): nothing issued is taken back and nothing recorded is cleared (R204, R219). -/

namespace Sys2Proof.Machine

/-! ### What only grows (R204, R219) -/

/-- From `s` to `t` events were only appended to the trace, whose newest event `revTrace` holds first, and no recorded
violation was cleared. -/
def Grows (s t : State) : Prop := s.revTrace <:+ t.revTrace ∧ s.violations ⊆ t.violations

theorem Grows.trans {s t u : State} (h : Grows s t) (k : Grows t u) : Grows s u := by
  obtain ⟨htrace, hmarks⟩ := h
  obtain ⟨htrace', hmarks'⟩ := k
  exact ⟨htrace.trans htrace', List.Subset.trans hmarks hmarks'⟩

/-- `Grows` speaks of the trace and the fault mark alone. -/
theorem grows_of_eq {s t : State} (htrace : t.revTrace = s.revTrace) (hmarks : t.violations = s.violations) :
    Grows s t :=
  ⟨htrace ▸ List.suffix_refl _, hmarks ▸ List.Subset.refl _⟩

/-- An operation that issues `evs`, newest first, and keeps the marks. -/
theorem grows_of_append {evs : List Event} {s t : State} (htrace : t.revTrace = evs ++ s.revTrace)
    (hmarks : ∀ v ∈ s.violations, v ∈ t.violations) : Grows s t :=
  ⟨⟨evs, htrace.symm⟩, hmarks⟩

theorem grows_markIf (c : Bool) (v : Violation) (s : State) : Grows s (markIf c v s) :=
  grows_of_append (evs := []) (by simp) fun _ hw => (mem_markIf c v _ s).mpr (.inr hw)

theorem grows_emit (e : Event) (s : State) : Grows s (emit e s) :=
  grows_of_append (evs := [e]) rfl fun _ hv => hv

/-- A mode switch opens or closes the ghost bracket (R37), then it is issued. -/
theorem grows_txSetData (s : State) : Grows s (txSetData s) :=
  grows_emit .txSetData { s with ghost := { s.ghost with dmOpen := true } }

theorem grows_txSetCmd (s : State) : Grows s (txSetCmd s) :=
  grows_emit .txSetCmd { s with ghost := { s.ghost with dmOpen := false } }

/-- A command settles the window, then it is issued (R38). -/
theorem grows_txCmd (b : Byte) (s : State) : Grows s (txCmd b s) :=
  (grows_markIf _ _ s).trans (grows_emit (.txCmd b) _)

theorem grows_setWindow (x1 y1 x2 y2 : Word) (s : State) : Grows s (setWindow x1 y1 x2 y2 s) :=
  grows_of_append (setWindow_revTrace x1 y1 x2 y2 s) fun v hv =>
    (mem_setWindow v x1 y1 x2 y2 s).mpr (.inr (.inr hv))

/-- An operation that sends `n` pixels. -/
theorem grows_of_pixels {evs : List Event} {n : Nat} {s t : State} (htrace : t.revTrace = evs ++ s.revTrace)
    (hmarks : t.violations = pixelMarks n s) : Grows s t :=
  grows_of_append htrace fun v hv => hmarks ▸ (mem_pixelMarks v n s).mpr (.inr hv)

theorem grows_sendWords (ws : List Word) (s : State) : Grows s (sendWords ws s) := by
  rw [sendWords_eq]
  exact grows_of_pixels rfl rfl

theorem grows_fillColor (color : Word) (count : DWord) (s : State) : Grows s (fillColor color count s) := by
  rw [fillColor_eq]
  exact grows_of_pixels rfl rfl

theorem grows_flush (s : State) : Grows s (flush s) := by
  rw [flush_eq]
  exact grows_of_pixels rfl rfl

theorem BlitStep.grows {evs : List Event} {n : Nat} {s t : State} (h : BlitStep evs n s t) : Grows s t := by
  obtain ⟨-, -, -, ht⟩ := h
  rw [ht]
  exact grows_of_pixels rfl rfl

theorem grows_sendParams (params : List Byte) (s : State) : Grows s (sendParams params s) := by
  rw [sendParams_eq]
  exact grows_of_append rfl fun _ hv => hv

theorem grows_rotate (r : BitVec 2) (s : State) : Grows s (rotate r s) :=
  (grows_txCmd _ s).trans <| (grows_emit (.txData _) _).trans (grows_of_eq rfl rfl)

theorem grows_beginBitmap (w h ox oy fg bg : Word) (s : State) : Grows s (beginBitmap w h ox oy fg bg s) :=
  grows_of_append (evs := .txSetData :: _) (beginBitmap_revTrace w h ox oy fg bg s) fun v hv =>
    (mem_beginBitmap rfl v fg bg).mpr (.inl hv)

/-! ### Every instruction, every step -/

/-- `Grows` does not see what `accept` and `complete` write (R36). -/
theorem Grows.completes {s u : State} (h : Grows { s with busy := true } u) : Grows s { u with busy := false } := h

theorem execFillscreen_grows {color : Word} {s t : State} (hrun : execFillscreen color s = .next t) : Grows s t := by
  obtain ⟨-, -, u, hu, hplain, hbracket⟩ := execFillscreen_next hrun
  have hwindow : Grows { s with busy := true } u :=
    hu ▸ (grows_markIf _ _ _).trans (grows_setWindow _ _ _ _ _)
  cases hf : s.cfg.fillscreenBracket with
  | false =>
    rw [hplain hf]
    exact (hwindow.trans (grows_fillColor color _ u)).completes
  | true =>
    rw [hbracket hf]
    exact (hwindow.trans <| (grows_txSetData u).trans <| (grows_fillColor color _ _).trans
      (grows_txSetCmd _)).completes

/-- An instruction that answers a next state: its operations one after another. -/
theorem exec_grows {i : Instr} {s t : State} (hrun : exec i s = .next t) : Grows s t := by
  cases i with
  | init =>
    obtain ⟨-, rfl⟩ := execInit_next hrun
    exact grows_markIf _ _ { s with busy := true }
  | runseq table =>
    obtain ⟨-, rfl⟩ := execRunseq_next hrun
    exact grows_markIf _ _ { s with busy := true, lat := { s.lat with table := table } }
  | setwin x1 y1 x2 y2 =>
    obtain ⟨-, rfl⟩ := execSetwin_next hrun
    exact ((grows_markIf _ _ _).trans (grows_setWindow x1 y1 x2 y2 _)).completes
  | begindata =>
    obtain ⟨-, rfl⟩ := execBegindata_next hrun
    exact ((grows_markIf _ _ _).trans (grows_txSetData _)).completes
  | enddata =>
    obtain ⟨-, rfl⟩ := execEnddata_next hrun
    exact ((grows_markIf _ _ _).trans (grows_txSetCmd _)).completes
  | sendwords ws =>
    obtain ⟨-, rfl⟩ := execSendwords_next hrun
    exact ((grows_markIf _ _ _).trans (grows_sendWords ws _)).completes
  | fillcolor color count =>
    obtain ⟨-, rfl⟩ := execFillcolor_next hrun
    exact ((grows_markIf _ _ _).trans <| (grows_markIf _ _ _).trans (grows_fillColor color count _)).completes
  | fillscreen color => exact execFillscreen_grows hrun
  | drawbitmap w h ox oy fg bg =>
    obtain ⟨-, -, _, _, u, hloop, -, rfl⟩ := execDrawbitmap_next hrun
    exact ((grows_beginBitmap w h ox oy fg bg _).trans <| hloop.grows.trans <| (grows_flush u).trans
      (grows_txSetCmd _)).completes
  | setrot r =>
    obtain ⟨-, rfl⟩ := execSetrot_next hrun
    have hbracket := grows_markIf s.ghost.dmOpen .commandInBracket
      { s with busy := true, lat := { s.lat with r := r } }
    split
    · exact hbracket.trans (grows_rotate (r.setWidth 2) _)
    · exact hbracket.trans (grows_markIf true .rotationSelector _)
  | endRec =>
    cases hrun
    exact grows_of_eq rfl rfl
  | delay ms =>
    cases hrun
    exact grows_emit (.clkDelay ms) s
  | cmd c params =>
    cases hrun
    exact (grows_txCmd c (loadRecord c (BitVec.ofNat 8 params.length) s)).trans (grows_sendParams params _)

theorem step_grows {s t : State} (hstep : step s = .next t) : Grows s t := by
  obtain ⟨-, hcase⟩ := step_cases hstep
  cases hcase with
  | ended _ _ ht => exact ht ▸ (grows_markIf _ _ s).trans (grows_markIf _ _ _)
  | request _ i rest _ hrun => exact exec_grows (s := { s with script := rest }) hrun
  | record _ i rest _ hrun => exact exec_grows hrun
  | loadWake _ ht => exact ht ▸ grows_of_eq (initLoadWake_revTrace s) (initLoadWake_violations s)
  | rotate _ ht =>
    exact ht ▸ grows_rotate s.cfg.initRotation { s with lat := { s.lat with r := s.cfg.initRotation.setWidth 8 } }

/-- Settles O51: `Grows` for every step; what stands behind `revTrace` stands in front in the trace. -/
theorem traceAndMarksOnlyGrow : Obligations.TraceAndMarksOnlyGrow := by
  intro s t hstep
  obtain ⟨htrace, hmarks⟩ := step_grows hstep
  obtain ⟨evs, hevs⟩ := List.reverse_prefix.mpr htrace
  exact ⟨⟨evs, hevs.symm⟩, hmarks⟩

end Sys2Proof.Machine

/-! Reset and hazards (spec/70_reset_and_hazards.md): the end of a run leaves no violation recorded exactly in the states
at rest (R254, log 10). -/

namespace Sys2Proof.Machine

/-- The end adds V5 for an open bracket and V3 for an unsettled window, and clears no mark. -/
theorem endOfExecution_violations_eq_nil (s : State) :
    (endOfExecution s).violations = [] ↔
      s.ghost.dmOpen = false ∧ windowSettled s.ghost ∧ s.violations = [] := by
  constructor
  · intro hnone
    have hmark (v : Violation) := (mem_endOfExecution v s).not.mp (by simp [hnone])
    refine ⟨?_, ?_, ?_⟩
    · by_contra hopen
      exact hmark .bracketPairing (.inr (.inl ⟨rfl, by simpa using hopen⟩))
    · by_contra hshort
      exact hmark .pixelCount (.inr (.inr ⟨rfl, hshort⟩))
    · exact List.eq_nil_iff_forall_not_mem.mpr fun v hv => hmark v (.inl hv)
  · rintro ⟨hclosed, hsettled, hnone⟩
    rw [endOfExecution_of_settled hclosed hsettled, hnone]

/-- Settles O59: with nothing in progress the step is the end, which adds no mark exactly where the state is at rest. -/
theorem atRestIsTheEnd : Obligations.AtRestIsTheEnd := by
  intro s hb hphase hbusy hsb hscript
  have hstep := step_of_ended hb hphase hscript
  constructor
  · calc s.AtRest
      _ ↔ s.ghost.dmOpen = false ∧ windowSettled s.ghost ∧ s.violations = [] := by
        simp [State.AtRest, hbusy, hsb, hscript]
      _ ↔ (endOfExecution s).violations = [] := (endOfExecution_violations_eq_nil s).symm
      _ ↔ ∃ t, step s = .next t ∧ t.violations = [] := by simp [hstep]
  · rintro ⟨-, -, hclosed, hsettled, -, -⟩
    rw [hstep, endOfExecution_of_settled hclosed hsettled]

end Sys2Proof.Machine

/-! The spec's own words (spec/95_test_vectors.md P1, P4, Q1, Q3, Q5, T2): each is the encoding of what it stands for,
with the bytes behind it. -/

namespace Sys2Proof.Machine

/-- Settles O5: the round trips (O1, O2) at the instructions the bytes encode. -/
theorem specEncodingsDecode : Obligations.SpecEncodingsDecode :=
  ⟨recordRoundTrip 32 (.cmd 0x3A [0x05]) [] rfl rfl,
   recordRoundTrip 32 (.delay 120) [] rfl rfl,
   recordRoundTrip 32 .endRec [0xAA] rfl rfl,
   recordRoundTrip 32 (.cmd 0x2A [0x00, 0x00, 0x00, 0xEF]) [0x00] rfl rfl,
   requestRoundTrip 32 (.setwin 2 3 3 4) [] rfl rfl,
   requestRoundTrip 32 (.setrot 1) [] rfl rfl⟩

end Sys2Proof.Machine
